-- ==== Sys2Proof/Word.lean ====
section
/-! DEFINITION. The words and index types of the SSC-32M engine (spec 00_scope.md R8, 10_state.md R20). -/

namespace Sys2Proof

/-- A 32-bit command, response or edge word as it crosses a port (30_encoding.md R80). -/
abbrev Word := BitVec 32

/-- A u16 register (00_scope.md R8). -/
abbrev U16 := BitVec 16

/-- A 32-bit register: u32, or i32 read through `BitVec.toInt` (00_scope.md R8). -/
abbrev U32 := BitVec 32

/-- What the EDGE array stores of an edge word: bits 20:0 (30_encoding.md R84, R89). -/
abbrev EdgeBits := BitVec 21

/-- A channel number, 0..11 (00_scope.md R6, N_CH = 12). -/
abbrev Chan := Fin 12

/-- A group number, 0..3 (10_state.md R31). -/
abbrev Group := Fin 4

/-- An index of the Edge table, 0..23 (10_state.md R33). -/
abbrev EdgeIdx := Fin 24

/-- The edge cursor, 0..24; the values 25 to 31 of its 5 bits are never reached (10_state.md R34) and are
left out of the type, as 93_implementation_defined.md U21 advises. -/
abbrev Cursor := Fin 25

end Sys2Proof
end

