-- ==== Sys2Proof/Config.lean ====
section
/-! DEFINITION. What an implementation fixes: the constants and parameters of 00_scope.md R6 with the constraints
of R7, and the one free value of the model, the choice of who moves next. -/

namespace Sys2Proof.Config

/-- FRAME_PERIOD_MS, fixed (00_scope.md R6). -/
def framePeriodMs : Nat := 20

/-- FRAME_TICKS, fixed (00_scope.md R6). -/
def frameTicks : Nat := 20000

/-- N_GROUPS, fixed (00_scope.md R6). -/
def nGroups : Nat := 4

/-- GROUP_SLOT_TICKS, fixed (00_scope.md R6). -/
def groupSlotTicks : Nat := 3000

/-- SENTINEL_HIGH, fixed (00_scope.md R6); SENTINEL_LOW is 0. -/
def sentinelHigh : Nat := 0xFFFF

/-- SPEED_MAX, fixed (00_scope.md R6). -/
def speedMax : U16 := 0xFFFF#16

/-- DISPATCH_LATENCY, fixed at 0 ticks (00_scope.md R6, 44_dispatch.md R169). -/
def dispatchLatency : Nat := 0

/-- DELTA_ROUND (00_scope.md R6): how PROFILE rounds the division of the delta. -/
inductive DeltaRound where
  | away
  | trunc
deriving DecidableEq, Repr

/-- HOLD_MODE (00_scope.md R6): which of the two widths HOLD overwrites. -/
inductive HoldMode where
  | freeze
  | jump
deriving DecidableEq, Repr

/-- The constraints K2, K3, K5 and K7 of 00_scope.md R7 and the range 1 to 65535 of START_LEAD_TICKS
(93_implementation_defined.md U12). K1, K4 and K6 are about fixed values only; see `fixed_constraints`. -/
abbrev constraintsHold (minPulse maxPulse spacing lead : Nat) : Prop :=
  3 * spacing ≤ minPulse - 1 ∧
  3 * spacing + maxPulse + 1 ≤ groupSlotTicks ∧
  0 < minPulse - 1 ∧ maxPulse + 1 < 0xFFFF ∧ minPulse ≤ maxPulse ∧
  dispatchLatency < spacing ∧
  0 < lead ∧ lead < 2 ^ 16

/-- The parameters of 00_scope.md R6 that a model takes as arguments. A configuration that breaks R7 is
refused there: here it cannot be built, because the constraints are a field. -/
structure Params where
  minPulse : Nat
  maxPulse : Nat
  risingEdgeSpacing : Nat
  startLeadTicks : Nat
  deltaRound : DeltaRound
  holdMode : HoldMode
  ok : constraintsHold minPulse maxPulse risingEdgeSpacing startLeadTicks
deriving DecidableEq, Repr

/-- The defaults of 00_scope.md R6. -/
def Params.default : Params where
  minPulse := 500
  maxPulse := 2500
  risingEdgeSpacing := 20
  startLeadTicks := 20000
  deltaRound := .away
  holdMode := .freeze
  ok := by decide

/-- K1, K4 and K6 of 00_scope.md R7, true of the fixed values. -/
theorem fixed_constraints :
    12 = nGroups * 3 ∧ nGroups * groupSlotTicks ≤ frameTicks ∧ frameTicks < 2 ^ 16 := by decide

/-- What may happen in one step besides RESET (00_scope.md R5): the host sends a command word, the
sequencer runs an iteration, or a tick of time passes. -/
inductive Event where
  | command (w : Word)
  | service
  | tick
deriving DecidableEq, Repr, Inhabited

/-- One turn of the outside: whether the reset input is asserted during it, and what happens otherwise.
While `reset` holds the event is lost (70_reset_and_hazards.md R230, 93 U22). -/
structure Turn where
  reset : Bool
  event : Event
deriving DecidableEq, Repr, Inhabited

/-- FREE VALUE (assumption 1). Turn number n of the run, chosen by the host, by the schedule and by time.
It has no body: nothing can be proved of it, so a claim holds for every order of the agents
(60_exceptions.md R206) and for every stream of command words. -/
opaque turn : Nat → Turn

end Sys2Proof.Config
end

