-- ==== Sys2Proof/Machine/State.lean ====
section
/-! DEFINITION. The state of the engine (10_state.md R20), the state of the model around it, the two kinds of
stop, and the reset values (10_state.md R44). -/

namespace Sys2Proof.Machine

/-- The engine: exactly the components of the table of 10_state.md R20. -/
structure Engine where
  /-- TGT, the target widths in whole µs (R21). -/
  tgt : Vector U16 12
  /-- CUR, the current widths, unsigned Q16.16 µs (R22). -/
  cur : Vector U32 12
  /-- DPF, the deltas per frame, signed Q16.16 µs in two's complement (R23). -/
  dpf : Vector U32 12
  /-- PC, which channels are commanded (R26). -/
  pc : Vector Bool 12
  /-- PW, the pending target widths in µs (R26). -/
  pw : Vector U16 12
  /-- PS, the pending speeds in µs per second (R26). -/
  ps : Vector U16 12
  /-- MOVE_T, the pending overall duration in ms (R26). -/
  moveT : U16
  /-- READY, the pending command may be committed (R26). -/
  ready : Bool
  /-- REMAIN, the remaining move time in ms (R29). -/
  remain : U16
  /-- FRAMECNT, the frame counter (R30). -/
  frameCnt : U32
  /-- EDGE, the Edge table: bits 20:0 of 24 edge words (R33, 30_encoding.md R89). -/
  edge : Vector EdgeBits 24
  /-- CURSOR, the index of the next unconsumed edge, 24 when there is none (R34). -/
  cursor : Cursor
  /-- TCNT, the timer count (R36). -/
  tcnt : U16
  /-- TCMP, the next compare time (R36). -/
  tcmp : U16
  /-- IF, the compare-match interrupt flag (R36). -/
  ifl : Bool
  /-- IE, the compare-match interrupt enable (R36). -/
  ie : Bool
  /-- EN, the engine is enabled (R37). -/
  en : Bool
  /-- FAULT_UNDERRUN, the sticky underrun bit (R38). -/
  underrun : Bool
  /-- POUT, the output latches of the pins (R39). -/
  pout : Vector Bool 12
  /-- POE, the output enables of the pins (R40). -/
  poe : Vector Bool 12
deriving DecidableEq, Repr

/-- The reset values of 10_state.md R44. -/
def Engine.reset : Engine where
  tgt := Vector.replicate 12 0
  cur := Vector.replicate 12 0
  dpf := Vector.replicate 12 0
  pc := Vector.replicate 12 false
  pw := Vector.replicate 12 0
  ps := Vector.replicate 12 0xFFFF
  moveT := 0
  ready := false
  remain := 0
  frameCnt := 0
  edge := Vector.replicate 24 0
  cursor := 24
  tcnt := 0
  tcmp := 0
  ifl := false
  ie := false
  en := false
  underrun := false
  pout := Vector.replicate 12 false
  poe := Vector.replicate 12 false

/-- The state of the model: the engine, and around it what the spec does not count as state
(10_state.md R42, R43). -/
structure State where
  /-- The engine's state, all of it. -/
  eng : Engine
  /-- The parameters of 00_scope.md R6, which no step writes (assumption 5). -/
  cfg : Config.Params
  /-- The word the latest step put on the response port, if it put one there (30_encoding.md R93,
  assumption 4). -/
  resp : Option Word
  /-- The turns the outside has already chosen, the next one first (assumption 2). -/
  script : List Config.Turn
  /-- How many turns have been drawn from the free value `Config.turn` (assumption 1). -/
  turnNo : Nat
deriving DecidableEq, Repr

/-- The machine right after reset: the engine as 10_state.md R44 has it, the default parameters of
00_scope.md R6, nothing on the response port, no turn chosen yet. -/
def State.reset : State where
  eng := Engine.reset
  cfg := Config.Params.default
  resp := none
  script := []
  turnNo := 0

/-- The stops the spec names for a state that no run reaches. -/
inductive Fault where
  /-- Raised by ESET and ECLR with CH 12 to 15, and by DISPATCH (so by TICK) when the word at CURSOR has such
  a CH: "DISPATCH on such a word is `stuck`; it must not write a pin" (93_implementation_defined.md U7).
  Safe: no run from reset has such a word in EDGE. -/
  | stuckEdgeWord
deriving DecidableEq, Repr

/-- The operations that have no step in the spec. The machine's own step meets none of them. -/
inductive Refusal where
  /-- Raised by no meaning; kept for an operation whose arm of `exec` would still be empty. Safe. -/
  | notModelled (mnemonic : String)
  /-- Raised by SERVICE and TICK with EN = 0: "there is no SERVICE step at all" (40_service_loop.md R100),
  "enabled in every state with EN = 1, and only there" (44_dispatch.md R160). Safe. -/
  | engineDisabled
  /-- Raised by FRAME, ACCUM, SCHED and RELOAD with CURSOR below 24: the model has no step that writes the
  table then (60_exceptions.md R202, 93_implementation_defined.md U8). Safe. -/
  | tableInUse
  /-- Raised by DISPATCH unless IF = 1 and IE = 1, its precondition (44_dispatch.md R162). Safe. -/
  | noInterrupt
  /-- Raised by ESET and ECLR with CURSOR = 24: an edge word is executed only as the word at CURSOR
  (44_dispatch.md R163), and there is none (46_arithmetic_control_access.md R265). Safe. -/
  | noEdgeAtCursor
deriving DecidableEq, Repr

/-- The outcome of one operation or one step. -/
abbrev Result := Host.Outcome State Fault Refusal

end Sys2Proof.Machine
end

