-- ==== Sys2Proof/Machine/Arith.lean ====
section
/-! DEFINITION. The arithmetic of 00_scope.md R9 and R10, exact on mathematical integers (R8), and the places
where a result is narrowed (46_arithmetic_control_access.md R260). -/

namespace Sys2Proof.Machine

/-- q16(w) = w * 65536 (00_scope.md R9). -/
def q16 (w : U16) : Nat := w.toNat * 65536

/-- q16(w) as a u32: it always fits (46_arithmetic_control_access.md R260). -/
def q16Word (w : U16) : U32 := BitVec.ofNat 32 (q16 w)

/-- us(x) = floor(x / 65536) (00_scope.md R9). -/
def us (x : U32) : Nat := x.toNat / 65536

/-- is_sent(w) (00_scope.md R10). -/
def isSent (w : Nat) : Bool := w == 0 || w == Config.sentinelHigh

/-- abs(a - b) of two widths (41_profile.md R113). -/
def absDiff (a b : Nat) : Nat := ((a : Int) - (b : Int)).natAbs

/-- div_trunc(n, d), d > 0 (00_scope.md R10). -/
def divTrunc (n : Int) (d : Nat) : Int := n.sign * ((n.natAbs / d : Nat) : Int)

/-- div_away(n, d), d > 0 (00_scope.md R10). -/
def divAway (n : Int) (d : Nat) : Int := n.sign * (((n.natAbs + (d - 1)) / d : Nat) : Int)

/-- The division DIV of PROFILE under DELTA_ROUND (41_profile.md R111, R116). -/
def divDelta (r : Config.DeltaRound) (n : Int) (d : Nat) : Int :=
  match r with
  | .away => divAway n d
  | .trunc => divTrunc n d

/-- clip_u16(n), n >= 0 (00_scope.md R10). -/
def clipU16 (n : Nat) : Nat := min n 0xFFFF

/-- sat_i32(n) (00_scope.md R10). -/
def satI32 (n : Int) : Int := max (-2 ^ 31) (min (2 ^ 31 - 1) n)

end Sys2Proof.Machine
end

