-- ==== Sys2Proof/Machine/Flags.lean ====
section
/-! DEFINITION. The one-bit and coded views of the state that a command can read: the status code of a channel
(45_host_interface.md R189) and the system word (30_encoding.md R93). The engine has no condition codes
(10_state.md R41). -/

namespace Sys2Proof.Machine

/-- The three status codes (45_host_interface.md R189). -/
inductive Status where
  | limp
  | traveling
  | holding
deriving DecidableEq, Repr

/-- The numbers of the status codes (45_host_interface.md R189). -/
def statusNumber (st : Status) : Word :=
  match st with
  | .limp => 0
  | .traveling => 1
  | .holding => 2

/-- The status of channel c: the limp test first, then the compare on the full Q16.16 value
(45_host_interface.md R189). -/
def channelStatus (e : Engine) (c : Chan) : Status :=
  if e.tgt[c] = 0 then .limp
  else if e.cur[c] ≠ q16Word e.tgt[c] then .traveling
  else .holding

/-- The system word (30_encoding.md R93, 45_host_interface.md R193). -/
def systemWord (e : Engine) : Word :=
  BitVec.ofNat 32 (e.cursor.val + e.en.toNat * 2 ^ 8 + e.ie.toNat * 2 ^ 9 + e.ifl.toNat * 2 ^ 10 +
    e.ready.toNat * 2 ^ 11 + e.underrun.toNat * 2 ^ 12)

end Sys2Proof.Machine
end

