-- ==== Sys2Proof/Syntax.lean ====
section
/-! DEFINITION. The operations of the engine: one constructor for each of the 27 rows of spec/opcode_table.json. -/

namespace Sys2Proof

/-- An operation of the engine. Format C operands are the fields CHN (4 bits) and IMM (16 bits) of
30_encoding.md R81, format E operands the fields CH (4 bits) and DT (16 bits) of R84. A field that an
operation ignores (R88 e) is no operand. The last nine are internal and have no encoding (R94). -/
inductive Instr where
  | setw (ch : BitVec 4) (width : U16)
  | sets (ch : BitVec 4) (speed : U16)
  | sett (ms : U16)
  | go
  | hold (ch : BitVec 4)
  | start
  | rdcur (ch : BitVec 4)
  | rdtgt (ch : BitVec 4)
  | rdstat (ch : BitVec 4)
  | rdrem
  | rdfrm
  | rdedge (j : U16)
  | rdsys
  | reserved0
  | reserved7
  | reservedF
  | eset (ch : BitVec 4) (dt : U16)
  | eclr (ch : BitVec 4) (dt : U16)
  | service
  | profile
  | frame
  | accum
  | sched
  | reload
  | tick
  | dispatch
  | reset
deriving DecidableEq, Repr

end Sys2Proof
end

