-- ==== Sys2Proof/WellFormed.lean ====
section
/-! DEFINITION. Which terms of `Instr` are operations of the spec. -/

namespace Sys2Proof

/-- The check of 30_encoding.md R89: an edge word names a channel 0 to 11. A host command is an operation
with any CHN and any IMM: an index that selects nothing has the effect of R88, not none. -/
def Instr.wellFormed : Instr → Bool
  | .eset ch _ => decide (ch.toNat < 12)
  | .eclr ch _ => decide (ch.toNat < 12)
  | .setw _ _ | .sets _ _ | .sett _ | .go | .hold _ | .start => true
  | .rdcur _ | .rdtgt _ | .rdstat _ | .rdrem | .rdfrm | .rdedge _ | .rdsys => true
  | .reserved0 | .reserved7 | .reservedF => true
  | .service | .profile | .frame | .accum | .sched | .reload => true
  | .tick | .dispatch | .reset => true

end Sys2Proof
end

