-- ==== Sys2Proof/Decode.lean ====
section
/-! DEFINITION. The decoders of the two word formats, the encoder, and the rows of the operation map
(30_encoding.md R80 to R94). -/

namespace Sys2Proof

/-- Where a word stands, which is what tells a decoder its format (30_encoding.md R80): the command port
(format C) or the Edge table (format E). -/
inductive Place where
  | commandPort
  | edgeTable
deriving DecidableEq, Repr

/-- Why a word of the Edge table is no edge word (30_encoding.md R89). The two names, and that the bits 31:21 are tested
first, are the model's (DESIGN CHOICE, assumption 17). Safe: such a word gets no meaning. -/
inductive DecodeError where
  /-- One of the bits 31:21 is set. -/
  | edgeHighBitsSet
  /-- The field CH holds 12 to 15. -/
  | edgeChannelAbove11
deriving DecidableEq, Repr

/-- OP, bits 31:28 of a format C word (30_encoding.md R81). -/
def opField (w : Word) : BitVec 4 := w.extractLsb' 28 4

/-- CHN, bits 27:24 of a format C word (30_encoding.md R81). -/
def chnField (w : Word) : BitVec 4 := w.extractLsb' 24 4

/-- IMM, bits 15:0 of a format C word (30_encoding.md R81). -/
def immField (w : Word) : U16 := w.extractLsb' 0 16

/-- Bits 31:21 of a format E word, always 0 in an edge word (30_encoding.md R84). -/
def edgeHighField (w : Word) : BitVec 11 := w.extractLsb' 21 11

/-- ACT, bit 20 of a format E word (30_encoding.md R84). -/
def actField (w : Word) : Bool := w.getLsbD 20

/-- CH, bits 19:16 of a format E word (30_encoding.md R84). -/
def chField (w : Word) : BitVec 4 := w.extractLsb' 16 4

/-- DT, bits 15:0 of a format E word (30_encoding.md R84). -/
def dtField (w : Word) : U16 := w.extractLsb' 0 16

/-- The OP map of format C (30_encoding.md R82). Every word decodes: the reserved codes of R87 are
operations that do nothing, and the fields an operation does not use are ignored (R88 e). -/
def decodeCommand (w : Word) : Instr :=
  match (opField w).toNat with
  | 0x0 => .reserved0
  | 0x1 => .setw (chnField w) (immField w)
  | 0x2 => .sets (chnField w) (immField w)
  | 0x3 => .sett (immField w)
  | 0x4 => .go
  | 0x5 => .hold (chnField w)
  | 0x6 => .start
  | 0x7 => .reserved7
  | 0x8 => .rdcur (chnField w)
  | 0x9 => .rdtgt (chnField w)
  | 0xA => .rdstat (chnField w)
  | 0xB => .rdrem
  | 0xC => .rdfrm
  | 0xD => .rdedge (immField w)
  | 0xE => .rdsys
  | _ => .reservedF

/-- The operation map of format E (30_encoding.md R85), rejecting by name what R89 calls invalid. -/
def decodeEdge (w : Word) : Except DecodeError Instr :=
  if edgeHighField w ≠ 0 then .error .edgeHighBitsSet
  else if 12 ≤ (chField w).toNat then .error .edgeChannelAbove11
  else if actField w then .ok (.eset (chField w) (dtField w))
  else .ok (.eclr (chField w) (dtField w))

/-- The decoder: total on every word at either place (30_encoding.md R80). -/
def decode (p : Place) (w : Word) : Except DecodeError Instr :=
  match p with
  | .commandPort => .ok (decodeCommand w)
  | .edgeTable => decodeEdge w

/-- A format C word OP, CHN, RSV = 0, IMM (30_encoding.md R81, R91). -/
def commandWord (op : BitVec 4) (chn : BitVec 4) (imm : U16) : Word :=
  BitVec.ofNat 32 (op.toNat * 2 ^ 28 + chn.toNat * 2 ^ 24 + imm.toNat)

/-- The 21 stored bits ACT, CH, DT of an edge word (30_encoding.md R84). -/
def edgeBits (act : Bool) (ch : BitVec 4) (dt : U16) : EdgeBits :=
  BitVec.ofNat 21 (act.toNat * 2 ^ 20 + ch.toNat * 2 ^ 16 + dt.toNat)

/-- The 32-bit edge word of an entry of EDGE: bits 31:21 are 0 (30_encoding.md R84). -/
def edgeWord (b : EdgeBits) : Word := b.setWidth 32

/-- The encoder (30_encoding.md R91, unused fields 0): the place and the word of an operation; an internal
operation has none (R94). -/
def encode : Instr → Option (Place × Word)
  | .setw ch width => some (.commandPort, commandWord 0x1 ch width)
  | .sets ch speed => some (.commandPort, commandWord 0x2 ch speed)
  | .sett ms => some (.commandPort, commandWord 0x3 0 ms)
  | .go => some (.commandPort, commandWord 0x4 0 0)
  | .hold ch => some (.commandPort, commandWord 0x5 ch 0)
  | .start => some (.commandPort, commandWord 0x6 0 0)
  | .rdcur ch => some (.commandPort, commandWord 0x8 ch 0)
  | .rdtgt ch => some (.commandPort, commandWord 0x9 ch 0)
  | .rdstat ch => some (.commandPort, commandWord 0xA ch 0)
  | .rdrem => some (.commandPort, commandWord 0xB 0 0)
  | .rdfrm => some (.commandPort, commandWord 0xC 0 0)
  | .rdedge j => some (.commandPort, commandWord 0xD 0 j)
  | .rdsys => some (.commandPort, commandWord 0xE 0 0)
  | .reserved0 => some (.commandPort, commandWord 0x0 0 0)
  | .reserved7 => some (.commandPort, commandWord 0x7 0 0)
  | .reservedF => some (.commandPort, commandWord 0xF 0 0)
  | .eset ch dt => some (.edgeTable, edgeWord (edgeBits true ch dt))
  | .eclr ch dt => some (.edgeTable, edgeWord (edgeBits false ch dt))
  | .service | .profile | .frame | .accum | .sched | .reload => none
  | .tick | .dispatch | .reset => none

/-- One row of spec/opcode_table.json: the place of its format, its `mask` and its `match`. -/
structure OpcodeRow where
  place : Place
  mask : Word
  pattern : Word
deriving DecidableEq, Repr

/-- The row of an operation, transcribed from spec/opcode_table.json; the internal rows hold null there. -/
def opcodeRow : Instr → Option OpcodeRow
  | .setw _ _ => some ⟨.commandPort, 0xF0000000#32, 0x10000000#32⟩
  | .sets _ _ => some ⟨.commandPort, 0xF0000000#32, 0x20000000#32⟩
  | .sett _ => some ⟨.commandPort, 0xF0000000#32, 0x30000000#32⟩
  | .go => some ⟨.commandPort, 0xF0000000#32, 0x40000000#32⟩
  | .hold _ => some ⟨.commandPort, 0xF0000000#32, 0x50000000#32⟩
  | .start => some ⟨.commandPort, 0xF0000000#32, 0x60000000#32⟩
  | .rdcur _ => some ⟨.commandPort, 0xF0000000#32, 0x80000000#32⟩
  | .rdtgt _ => some ⟨.commandPort, 0xF0000000#32, 0x90000000#32⟩
  | .rdstat _ => some ⟨.commandPort, 0xF0000000#32, 0xA0000000#32⟩
  | .rdrem => some ⟨.commandPort, 0xF0000000#32, 0xB0000000#32⟩
  | .rdfrm => some ⟨.commandPort, 0xF0000000#32, 0xC0000000#32⟩
  | .rdedge _ => some ⟨.commandPort, 0xF0000000#32, 0xD0000000#32⟩
  | .rdsys => some ⟨.commandPort, 0xF0000000#32, 0xE0000000#32⟩
  | .reserved0 => some ⟨.commandPort, 0xF0000000#32, 0x00000000#32⟩
  | .reserved7 => some ⟨.commandPort, 0xF0000000#32, 0x70000000#32⟩
  | .reservedF => some ⟨.commandPort, 0xF0000000#32, 0xF0000000#32⟩
  | .eset _ _ => some ⟨.edgeTable, 0xFFF00000#32, 0x00100000#32⟩
  | .eclr _ _ => some ⟨.edgeTable, 0xFFF00000#32, 0x00000000#32⟩
  | .service | .profile | .frame | .accum | .sched | .reload => none
  | .tick | .dispatch | .reset => none

/-- The place of a word of which only the bits are known: the Edge table where the word is an edge word,
the command port otherwise (DESIGN CHOICE, assumption 7: on the machine the place is always known). -/
def placeOfBareWord (w : Word) : Place :=
  match decodeEdge w with
  | .ok _ => .edgeTable
  | .error _ => .commandPort

/-- The 32-bit word of `nbits` given bits; every bit above them is 0. -/
def bareWord (nbits w : Nat) : Word := BitVec.ofNat 32 (w % 2 ^ nbits)

/-- What the decoder reads from a word given by its bits alone. -/
def decodeTableWord (nbits w : Nat) : Option Instr :=
  match decode (placeOfBareWord (bareWord nbits w)) (bareWord nbits w) with
  | .ok i => some i
  | .error _ => none

end Sys2Proof
end

