-- ==== Sys2Proof/Machine/Operands.lean ====
section
/-! DEFINITION. How an operand names an entry of an array (20_memory.md R61, 46_arithmetic_control_access.md
R265): directly from a field of the command word, or through CURSOR. -/

namespace Sys2Proof.Machine

/-- The channel a CHN or CH field names: none for 12 to 15 (30_encoding.md R88, R89). -/
def chan? (ch : BitVec 4) : Option Chan :=
  if h : ch.toNat < 12 then some ⟨ch.toNat, h⟩ else none

/-- The entry of EDGE that the 16 bits of IMM name: none for 24 and above (30_encoding.md R83, R88). -/
def edgeIdx? (j : U16) : Option EdgeIdx :=
  if h : j.toNat < 24 then some ⟨j.toNat, h⟩ else none

/-- The entry of EDGE at CURSOR: none when CURSOR = 24 (44_dispatch.md R162). -/
def cursorIdx? (c : Cursor) : Option EdgeIdx :=
  if h : c.val < 24 then some ⟨c.val, h⟩ else none

/-- What a read answers when its index names nothing (30_encoding.md R88 b). -/
def invalidRead : Word := 0xFFFFFFFF#32

end Sys2Proof.Machine
end

