-- ==== Sys2Proof/Machine/Ops.lean ====
section
/-! DEFINITION. The named operations over registers, pins, the timer and the ports that the meanings share,
and the entry into the one fault of the engine. -/

namespace Sys2Proof.Machine

/-- Replace the engine of a state. -/
def State.withEngine (s : State) (e : Engine) : State := { s with eng := e }

/-- respond(v): put v on the response port (00_scope.md R12). -/
def State.respond (s : State) (v : Word) : State := { s with resp := some v }

/-- PC[c] <- 1 and PW[c] <- width (45_host_interface.md R181). -/
def commandChannel (c : Chan) (width : U16) (e : Engine) : Engine :=
  { e with pc := e.pc.set c true, pw := e.pw.set c width }

/-- PS[c] <- speed (45_host_interface.md R182). -/
def setPendingSpeed (c : Chan) (speed : U16) (e : Engine) : Engine :=
  { e with ps := e.ps.set c speed }

/-- HOLD_MODE = freeze: the target moves to the current whole microsecond (45_host_interface.md R185). -/
def freezeChannel (c : Chan) (e : Engine) : Engine :=
  { e with
    tgt := e.tgt.set c (BitVec.ofNat 16 (us e.cur[c]))
    cur := e.cur.set c (q16Word (BitVec.ofNat 16 (us e.cur[c])))
    dpf := e.dpf.set c 0 }

/-- HOLD_MODE = jump: the current width moves to the target (45_host_interface.md R185). -/
def jumpChannel (c : Chan) (e : Engine) : Engine :=
  { e with
    cur := e.cur.set c (q16Word e.tgt[c])
    dpf := e.dpf.set c 0 }

/-- START on a disabled engine: enable it, make every pin an output, arm the timer
(45_host_interface.md R186). -/
def startEngine (lead : Nat) (e : Engine) : Engine :=
  { e with
    en := true
    poe := Vector.replicate 12 true
    tcmp := e.tcnt + BitVec.ofNat 16 lead
    ie := true }

/-- pin_set(c) and pin_clear(c): POUT[c] <- level (00_scope.md R12, 10_state.md R39). -/
def writePin (c : Chan) (level : Bool) (e : Engine) : Engine :=
  { e with pout := e.pout.set c level }

/-- CURSOR + 1; at 24 the cursor stays (10_state.md R34). -/
def nextCursor (c : Cursor) : Cursor :=
  if h : c.val < 24 then ⟨c.val + 1, by omega⟩ else c

/-- CURSOR <- CURSOR + 1 and TCMP <- (TCMP + dt) mod 2^16 (44_dispatch.md R163, R167). -/
def advance (dt : U16) (e : Engine) : Engine :=
  { e with cursor := nextCursor e.cursor, tcmp := e.tcmp + dt }

/-- IF <- 0, the first action of DISPATCH (44_dispatch.md R162). -/
def clearInterrupt (e : Engine) : Engine := { e with ifl := false }

/-- `raise Underrun` (60_exceptions.md R203): FAULT_UNDERRUN <- 1 and nothing else. Entry saves nothing, and
there is nothing to return from (R207, R208). -/
def raiseUnderrun (e : Engine) : Engine := { e with underrun := true }

/-- The count of one tick: TCNT <- (TCNT + 1) mod 2^16, and IF <- 1 if the new TCNT equals TCMP
(44_dispatch.md R160, R161). -/
def countTick (e : Engine) : Engine :=
  { e with tcnt := e.tcnt + 1, ifl := e.ifl || e.tcnt + 1 == e.tcmp }

/-- Execute one edge word: the pin action on channel CH, then the cursor and the compare time
(44_dispatch.md R163, R164). A CH of 12 to 15 is stuck and writes no pin (93 U7); with CURSOR = 24 there is
no word to execute (46_arithmetic_control_access.md R265). -/
def runEdgeWord (level : Bool) (ch : BitVec 4) (dt : U16) (s : State) : Result :=
  match chan? ch with
  | none => .fault .stuckEdgeWord
  | some c =>
    if s.eng.cursor = 24 then .refused .noEdgeAtCursor
    else .next (s.withEngine (advance dt (writePin c level s.eng)))

/-- A host write to channel CHN: an index that names no channel drops the word (30_encoding.md R88 a). -/
def writeChannel (ch : BitVec 4) (f : Chan → Engine → Engine) (s : State) : Result :=
  match chan? ch with
  | none => .next s
  | some c => .next (s.withEngine (f c s.eng))

/-- A host read of channel CHN: an index that names no channel answers 0xFFFFFFFF (30_encoding.md R88 b). -/
def readChannel (ch : BitVec 4) (f : Chan → Word) (s : State) : Result :=
  match chan? ch with
  | none => .next (s.respond invalidRead)
  | some c => .next (s.respond (f c))

/-- Run f on the engine, as a part of FRAME may run: only when CURSOR = 24 (40_service_loop.md R101). -/
def whenTableDone (f : Engine → Engine) (s : State) : Result :=
  if s.eng.cursor = 24 then .next (s.withEngine (f s.eng)) else .refused .tableInUse

end Sys2Proof.Machine
end

