-- ==== Sys2Proof/Machine/HostCommands.lean ====
section
/-! DEFINITION. The host commands (45_host_interface.md R180 to R196), the reserved command codes
(30_encoding.md R87) and the reset input (70_reset_and_hazards.md R230). -/

namespace Sys2Proof.Machine

/-- SETW ch, width (45_host_interface.md R181). -/
def execSetw (ch : BitVec 4) (width : U16) (s : State) : Result :=
  writeChannel ch (fun c => commandChannel c width) s

/-- SETS ch, speed (45_host_interface.md R182). -/
def execSets (ch : BitVec 4) (speed : U16) (s : State) : Result :=
  writeChannel ch (fun c => setPendingSpeed c speed) s

/-- SETT ms (45_host_interface.md R183). -/
def execSett (ms : U16) (s : State) : Result :=
  .next (s.withEngine { s.eng with moveT := ms })

/-- GO (45_host_interface.md R184). -/
def execGo (s : State) : Result :=
  .next (s.withEngine { s.eng with ready := true })

/-- HOLD ch (45_host_interface.md R185), in the mode of the parameter HOLD_MODE. -/
def execHold (ch : BitVec 4) (s : State) : Result :=
  match s.cfg.holdMode with
  | .freeze => writeChannel ch freezeChannel s
  | .jump => writeChannel ch jumpChannel s

/-- START (45_host_interface.md R186). -/
def execStart (s : State) : Result :=
  if s.eng.en then .next s else .next (s.withEngine (startEngine s.cfg.startLeadTicks s.eng))

/-- RDCUR ch (45_host_interface.md R187). -/
def execRdcur (ch : BitVec 4) (s : State) : Result :=
  readChannel ch (fun c => s.eng.cur[c]) s

/-- RDTGT ch (45_host_interface.md R188). -/
def execRdtgt (ch : BitVec 4) (s : State) : Result :=
  readChannel ch (fun c => s.eng.tgt[c].setWidth 32) s

/-- RDSTAT ch (45_host_interface.md R189). -/
def execRdstat (ch : BitVec 4) (s : State) : Result :=
  readChannel ch (fun c => statusNumber (channelStatus s.eng c)) s

/-- RDREM (45_host_interface.md R190). -/
def execRdrem (s : State) : Result :=
  .next (s.respond (s.eng.remain.setWidth 32))

/-- RDFRM (45_host_interface.md R191). -/
def execRdfrm (s : State) : Result :=
  .next (s.respond s.eng.frameCnt)

/-- RDEDGE j (45_host_interface.md R192): all 16 bits of the index count (90_conflicts.md C7). -/
def execRdedge (j : U16) (s : State) : Result :=
  match edgeIdx? j with
  | none => .next (s.respond invalidRead)
  | some i => .next (s.respond (edgeWord s.eng.edge[i]))

/-- RDSYS (45_host_interface.md R193). -/
def execRdsys (s : State) : Result :=
  .next (s.respond (systemWord s.eng))

/-- A command word with OP = 0x0 is dropped (30_encoding.md R87). -/
def execReserved0 (s : State) : Result := .next s

/-- A command word with OP = 0x7 is dropped (30_encoding.md R87). -/
def execReserved7 (s : State) : Result := .next s

/-- A command word with OP = 0xF is dropped (30_encoding.md R87). -/
def execReservedF (s : State) : Result := .next s

/-- RESET (70_reset_and_hazards.md R230): every piece of the engine's state to its reset value. -/
def execReset (s : State) : Result :=
  .next (s.withEngine Engine.reset)

end Sys2Proof.Machine
end

