-- ==== Sys2Proof/Machine/Accum.lean ====
section
/-! DEFINITION. ACCUM, the PulseAccumulator (42_accumulate.md R130 to R138). -/

namespace Sys2Proof.Machine

/-- One channel's add and clamp, tested on the exact sum (42_accumulate.md R131, R133, R135). -/
def accumWidth (tgt : U16) (cur dpf : U32) : U32 :=
  let sum : Int := cur.toNat + dpf.toInt
  if 0 < dpf.toInt ∧ (q16 tgt : Int) ≤ sum then q16Word tgt
  else if dpf.toInt < 0 ∧ sum ≤ (q16 tgt : Int) then q16Word tgt
  else if dpf.toInt = 0 then cur
  else BitVec.ofInt 32 sum

/-- ACCUM (42_accumulate.md R131). -/
def accum (e : Engine) : Engine :=
  { e with
    remain := BitVec.ofNat 16 (e.remain.toNat - Config.framePeriodMs)
    cur := Vector.ofFn fun c => accumWidth e.tgt[c] e.cur[c] e.dpf[c]
    frameCnt := e.frameCnt + 1 }

/-- ACCUM as the first part of FRAME (42_accumulate.md R131). -/
def execAccum (s : State) : Result :=
  whenTableDone accum s

end Sys2Proof.Machine
end

