-- ==== Sys2Proof/Machine/Profile.lean ====
section
/-! DEFINITION. PROFILE, the MotionProfileCalculator (41_profile.md R110 to R127). -/

namespace Sys2Proof.Machine

/-- PS[c], with a zero speed used as 1 (41_profile.md R114). -/
def voteSpeed (e : Engine) (c : Chan) : Nat :=
  if e.ps[c] = 0 then 1 else e.ps[c].toNat

/-- Whether a sentinel is the commanded or the current width of channel c (41_profile.md R115, R117). -/
def sentinelInvolved (e : Engine) (c : Chan) : Bool :=
  isSent e.pw[c].toNat || isSent (us e.cur[c])

/-- The vote of channel c, in ms (41_profile.md R113). -/
def vote (e : Engine) (c : Chan) : Nat :=
  clipU16 (divTrunc ((1000 * absDiff e.pw[c].toNat (us e.cur[c]) : Nat) : Int) (voteSpeed e c)).toNat

/-- Whether channel c votes (41_profile.md R115). -/
def votes (e : Engine) (c : Chan) : Bool :=
  e.pc[c] && !sentinelInvolved e c

/-- Pass 1: the final duration, the maximum of MOVE_T and the votes (41_profile.md R111, R115). -/
def moveDuration (e : Engine) : Nat :=
  (List.finRange 12).foldl (fun dur c => if votes e c then max dur (vote e c) else dur) e.moveT.toNat

/-- Whether a commanded channel snaps (41_profile.md R111, R117). -/
def snaps (e : Engine) (dur : Nat) (c : Chan) : Bool :=
  sentinelInvolved e c || dur == 0

/-- Whether channel c takes the delta branch of pass 2 (41_profile.md R111, R119). -/
def timeProfiled (e : Engine) (dur : Nat) (c : Chan) : Bool :=
  e.pc[c] && !snaps e dur c

/-- The delta of a time-profiled channel before it is stored (41_profile.md R116). -/
def frameDelta (r : Config.DeltaRound) (e : Engine) (dur : Nat) (c : Chan) : Int :=
  divDelta r (Config.framePeriodMs * ((q16 e.pw[c] : Int) - (e.cur[c].toNat : Int))) dur

/-- Passes 2 and 3, and the writes of READY and REMAIN, for a final duration dur (41_profile.md R111). -/
def commitPending (r : Config.DeltaRound) (dur : Nat) (e : Engine) : Engine :=
  { e with
    ready := false
    tgt := Vector.ofFn fun c => if e.pc[c] then e.pw[c] else e.tgt[c]
    cur := Vector.ofFn fun c => if e.pc[c] && snaps e dur c then q16Word e.pw[c] else e.cur[c]
    dpf := Vector.ofFn fun c =>
      if e.pc[c] then
        if snaps e dur c then 0 else BitVec.ofInt 32 (satI32 (frameDelta r e dur c))
      else e.dpf[c]
    remain := if (List.finRange 12).any (timeProfiled e dur) then BitVec.ofNat 16 dur else e.remain
    pc := Vector.replicate 12 false
    ps := Vector.replicate 12 Config.speedMax }

/-- The three passes of PROFILE (41_profile.md R111). -/
def profile (r : Config.DeltaRound) (e : Engine) : Engine := commitPending r (moveDuration e) e

/-- PROFILE (41_profile.md R110, R111): "no-op unless a command is `ready`". -/
def execProfile (s : State) : Result :=
  if s.eng.ready then .next (s.withEngine (profile s.cfg.deltaRound s.eng)) else .next s

end Sys2Proof.Machine
end

