-- ==== Sys2Proof/Machine/Sched.lean ====
section
/-! DEFINITION. SCHED, the EdgeScheduler (43_schedule.md R140 to R152). -/

namespace Sys2Proof.Machine

/-- The key of a whole width in µs (43_schedule.md R141). -/
def keyOfWidth (p : Config.Params) (w : Nat) : Nat :=
  if w < p.minPulse then p.minPulse - 1
  else if p.maxPulse < w then p.maxPulse + 1
  else w

/-- key(c) (43_schedule.md R141). -/
def key (p : Config.Params) (e : Engine) (c : Chan) : Nat := keyOfWidth p (us e.cur[c])

/-- The order of the sort: by key, ties by channel number (43_schedule.md R142). -/
def sortsBefore (k : Chan → Nat) (a b : Chan) : Bool :=
  k a < k b || (k a == k b && a < b)

/-- Insert a channel into a sorted list. -/
def insertChannel (k : Chan → Nat) (a : Chan) : List Chan → List Chan
  | [] => [a]
  | b :: rest => if sortsBefore k a b then a :: b :: rest else b :: insertChannel k a rest

/-- Channel 3g + i (10_state.md R31). -/
def groupChannel (g : Group) (i : Fin 3) : Chan := ⟨3 * g.val + i.val, by omega⟩

/-- The channels of group g in sorted order, p_0, p_1, p_2 (43_schedule.md R142). -/
def sortedGroup (k : Chan → Nat) (g : Group) : List Chan :=
  insertChannel k (groupChannel g 0) (insertChannel k (groupChannel g 1) [groupChannel g 2])

/-- p_i of group g (43_schedule.md R142). -/
def sortedChannel (k : Chan → Nat) (g : Group) (i : Fin 3) : Chan :=
  (sortedGroup k g).getD i.val (groupChannel g i)

/-- The group that owns entry j (43_schedule.md R145). -/
def edgeGroup (j : EdgeIdx) : Group := ⟨j.val / 6, by omega⟩

/-- The sorted position of entry j (43_schedule.md R145). -/
def edgePosition (j : EdgeIdx) : Fin 3 := ⟨j.val % 3, by omega⟩

/-- Whether entry j is a falling edge (43_schedule.md R145). -/
def edgeFalls (j : EdgeIdx) : Bool := decide (3 ≤ j.val % 6)

/-- The channel of entry j (43_schedule.md R145). -/
def edgeChannel (k : Chan → Nat) (j : EdgeIdx) : Chan :=
  sortedChannel k (edgeGroup j) (edgePosition j)

/-- abs(j), in ticks from the start of the frame (43_schedule.md R143 to R145). -/
def edgeTime (p : Config.Params) (k : Chan → Nat) (j : EdgeIdx) : Nat :=
  Config.groupSlotTicks * (edgeGroup j).val + p.risingEdgeSpacing * (edgePosition j).val +
    if edgeFalls j then k (edgeChannel k j) else 0

/-- The time of the edge after entry j, FRAME_TICKS after the last (43_schedule.md R146). -/
def nextEdgeTime (p : Config.Params) (k : Chan → Nat) (j : EdgeIdx) : Nat :=
  if h : j.val + 1 < 24 then edgeTime p k ⟨j.val + 1, h⟩ else Config.frameTicks

/-- The pin action of entry j: set for the rising edge of a channel that is not forced low, and for the
falling edge of a channel that is forced high (43_schedule.md R143, R144). -/
def edgeSets (p : Config.Params) (k : Chan → Nat) (j : EdgeIdx) : Bool :=
  if edgeFalls j then decide (p.maxPulse < k (edgeChannel k j))
  else decide (p.minPulse ≤ k (edgeChannel k j))

/-- Entry j of the table SCHED writes (43_schedule.md R146, R147). -/
def schedEntry (p : Config.Params) (k : Chan → Nat) (j : EdgeIdx) : EdgeBits :=
  edgeBits (edgeSets p k j) (BitVec.ofNat 4 (edgeChannel k j).val)
    (BitVec.ofNat 16 (nextEdgeTime p k j - edgeTime p k j))

/-- SCHED (43_schedule.md R147). -/
def sched (p : Config.Params) (e : Engine) : Engine :=
  { e with edge := Vector.ofFn (schedEntry p (key p e)) }

/-- SCHED as the second part of FRAME (43_schedule.md R147). -/
def execSched (s : State) : Result :=
  whenTableDone (sched s.cfg) s

end Sys2Proof.Machine
end

