-- ==== Sys2Proof/Machine/Sequencer.lean ====
section
/-! DEFINITION. The sequencer's SERVICE iteration, FRAME and RELOAD (40_service_loop.md R100 to R106). -/

namespace Sys2Proof.Machine

/-- RELOAD: CURSOR <- 0 (40_service_loop.md R102). -/
def reload (e : Engine) : Engine := { e with cursor := 0 }

/-- FRAME: ACCUM, then SCHED on the widths ACCUM wrote, then RELOAD (40_service_loop.md R101). -/
def frame (p : Config.Params) (e : Engine) : Engine := reload (sched p (accum e))

/-- The first test of SERVICE (40_service_loop.md R100). -/
def commitIfReady (p : Config.Params) (e : Engine) : Engine :=
  if e.ready then profile p.deltaRound e else e

/-- The second test of SERVICE (40_service_loop.md R100). -/
def frameIfDone (p : Config.Params) (e : Engine) : Engine :=
  if e.cursor = 24 then frame p e else e

/-- RELOAD as the last part of FRAME (40_service_loop.md R102). -/
def execReload (s : State) : Result :=
  whenTableDone reload s

/-- FRAME (40_service_loop.md R101). -/
def execFrame (s : State) : Result :=
  whenTableDone (frame s.cfg) s

/-- SERVICE (40_service_loop.md R100): enabled iff EN = 1. -/
def execService (s : State) : Result :=
  if s.eng.en then .next (s.withEngine (frameIfDone s.cfg (commitIfReady s.cfg s.eng)))
  else .refused .engineDisabled

end Sys2Proof.Machine
end

