-- ==== Sys2Proof/Machine/EdgeWords.lean ====
section
/-! DEFINITION. The two edge words (44_dispatch.md R163, R164). -/

namespace Sys2Proof.Machine

/-- ESET ch, dt: POUT[ch] <- 1, CURSOR + 1, TCMP + dt (44_dispatch.md R163). -/
def execEset (ch : BitVec 4) (dt : U16) (s : State) : Result :=
  runEdgeWord true ch dt s

/-- ECLR ch, dt: POUT[ch] <- 0, CURSOR + 1, TCMP + dt (44_dispatch.md R164). -/
def execEclr (ch : BitVec 4) (dt : U16) (s : State) : Result :=
  runEdgeWord false ch dt s

end Sys2Proof.Machine
end

