-- ==== Sys2Proof/Machine/Timer.lean ====
section
/-! DEFINITION. TICK and DISPATCH (44_dispatch.md R160 to R171): the count, the compare match, and the
interrupt body that executes the edge word at CURSOR. -/

namespace Sys2Proof.Machine

/-- Fetch the edge word at CURSOR and execute it. Every word of EDGE that is no edge word is stuck
(93_implementation_defined.md U7). -/
def runEdgeAt (j : EdgeIdx) (s : State) : Result :=
  match decode .edgeTable (edgeWord s.eng.edge[j]) with
  | .ok (.eset ch dt) => execEset ch dt s
  | .ok (.eclr ch dt) => execEclr ch dt s
  | _ => .fault .stuckEdgeWord

/-- DISPATCH once its precondition holds (44_dispatch.md R162): clear IF, then execute the word at CURSOR,
or raise Underrun when CURSOR = 24. -/
def dispatchBody (s : State) : Result :=
  match cursorIdx? s.eng.cursor with
  | some j => runEdgeAt j (s.withEngine (clearInterrupt s.eng))
  | none => .next (s.withEngine (raiseUnderrun (clearInterrupt s.eng)))

/-- DISPATCH (44_dispatch.md R162): runs when IF = 1 and IE = 1. -/
def execDispatch (s : State) : Result :=
  if s.eng.ifl && s.eng.ie then dispatchBody s else .refused .noInterrupt

/-- The third line of TICK (44_dispatch.md R160). -/
def dispatchIfPending (s : State) : Result :=
  if s.eng.ifl && s.eng.ie then dispatchBody s else .next s

/-- TICK (44_dispatch.md R160): enabled iff EN = 1. -/
def execTick (s : State) : Result :=
  if s.eng.en then dispatchIfPending (s.withEngine (countTick s.eng)) else .refused .engineDisabled

end Sys2Proof.Machine
end

