-- ==== Sys2Proof/Machine/Dispatch.lean ====
section
/-! DEFINITION. The dispatch of an operation to its meaning, one arm per constructor of Instr. -/

namespace Sys2Proof.Machine

/-- The meaning of one operation. -/
def exec (i : Instr) (s : State) : Host.Outcome State Fault Refusal :=
  match i with
  | .setw ch width => Sys2Proof.Machine.execSetw ch width s
  | .sets ch speed => Sys2Proof.Machine.execSets ch speed s
  | .sett ms => Sys2Proof.Machine.execSett ms s
  | .go => Sys2Proof.Machine.execGo s
  | .hold ch => Sys2Proof.Machine.execHold ch s
  | .start => Sys2Proof.Machine.execStart s
  | .rdcur ch => Sys2Proof.Machine.execRdcur ch s
  | .rdtgt ch => Sys2Proof.Machine.execRdtgt ch s
  | .rdstat ch => Sys2Proof.Machine.execRdstat ch s
  | .rdrem => Sys2Proof.Machine.execRdrem s
  | .rdfrm => Sys2Proof.Machine.execRdfrm s
  | .rdedge j => Sys2Proof.Machine.execRdedge j s
  | .rdsys => Sys2Proof.Machine.execRdsys s
  | .reserved0 => Sys2Proof.Machine.execReserved0 s
  | .reserved7 => Sys2Proof.Machine.execReserved7 s
  | .reservedF => Sys2Proof.Machine.execReservedF s
  | .eset ch dt => Sys2Proof.Machine.execEset ch dt s
  | .eclr ch dt => Sys2Proof.Machine.execEclr ch dt s
  | .service => Sys2Proof.Machine.execService s
  | .profile => Sys2Proof.Machine.execProfile s
  | .frame => Sys2Proof.Machine.execFrame s
  | .accum => Sys2Proof.Machine.execAccum s
  | .sched => Sys2Proof.Machine.execSched s
  | .reload => Sys2Proof.Machine.execReload s
  | .tick => Sys2Proof.Machine.execTick s
  | .dispatch => Sys2Proof.Machine.execDispatch s
  | .reset => Sys2Proof.Machine.execReset s

end Sys2Proof.Machine
end

