-- ==== Sys2Proof/Machine/Fetch.lean ====
section
/-! DEFINITION. Which operation the next step runs (00_scope.md R5, 60_exceptions.md R206), and how an
instruction is put where the next step takes it from. -/

namespace Sys2Proof.Machine

/-- The next turn of the outside: the first of the script, or else the next one of the free value
`Config.turn`. With the turn taken, the response port is empty again: a word stands on it only in the step
that put it there (30_encoding.md R93). -/
def takeTurn (s : State) : Config.Turn × State :=
  match s.script with
  | t :: rest => (t, { s with script := rest, resp := none })
  | [] => (Config.turn s.turnNo, { s with turnNo := s.turnNo + 1, resp := none })

/-- The operation a turn runs. While the reset input is asserted it is RESET, and the event is lost
(70_reset_and_hazards.md R230). A command word is decoded at the command port. SERVICE and TICK are enabled
only while EN = 1 (40_service_loop.md R100, 44_dispatch.md R160): with EN = 0 no operation runs. -/
def turnInstr (t : Config.Turn) (en : Bool) : Option Instr :=
  if t.reset then some .reset
  else match t.event with
    | .command w => some (decodeCommand w)
    | .service => if en then some .service else none
    | .tick => if en then some .tick else none

/-- The turn that sends a command word. -/
def commandTurn (w : Word) : Config.Turn := ⟨false, .command w⟩

/-- The turn in which one tick of time passes. -/
def tickTurn : Config.Turn := ⟨false, .tick⟩

/-- Where an edge word is placed: at CURSOR, or at entry 0 when CURSOR = 24. -/
def placementIdx (c : Cursor) : EdgeIdx := (cursorIdx? c).getD 0

/-- Put an edge word where the next DISPATCH fetches, and make the next step a tick that matches: the engine
enabled, the interrupt enabled, the compare time one tick ahead. -/
def placeEdgeWord (w : Word) (s : State) : State :=
  { s with
    eng := { s.eng with
      edge := s.eng.edge.set (placementIdx s.eng.cursor) (w.setWidth 21)
      cursor := (placementIdx s.eng.cursor).castSucc
      tcmp := s.eng.tcnt + 1
      en := true
      ie := true }
    script := tickTurn :: s.script }

/-- Put a word where the next step takes its operation from: an edge word into EDGE under CURSOR, a command
word on the command port. -/
def placeWord (w : Word) (s : State) : State :=
  match placeOfBareWord w with
  | .edgeTable => placeEdgeWord w s
  | .commandPort => { s with script := commandTurn w :: s.script }

end Sys2Proof.Machine
end

