-- ==== Sys2Proof/Machine/Step.lean ====
section
/-! DEFINITION. One step of the machine: one turn of one agent (00_scope.md R5). -/

namespace Sys2Proof.Machine

/-- One step: take the next turn and run its operation. A turn of the sequencer or of time while EN = 0 runs
none, and the engine stands still (10_state.md R37, 70_reset_and_hazards.md R232). -/
def step (s : State) : Host.Outcome State Fault Refusal :=
  match turnInstr (takeTurn s).1 s.eng.en with
  | some i => exec i (takeTurn s).2
  | none => .next (takeTurn s).2

/-- The state in which the very next step fetches and runs the word of the given bits (assumption 2). -/
def State.withFetchWord (s : State) (nbits w : Nat) : State := placeWord (bareWord nbits w) s

end Sys2Proof.Machine
end

