-- ==== Sys2Proof/Safety.lean ====
section
/-! DEFINITION. The terms the claims are stated in: the fields of a stored edge word, runs of one operation, the
invariant of the reachable states, and the bound on the sequencer. -/

namespace Sys2Proof.Machine

/-- ACT of entry j of EDGE (30_encoding.md R84). -/
def entrySets (e : Engine) (j : EdgeIdx) : Bool := actField (edgeWord e.edge[j])

/-- CH of entry j of EDGE (30_encoding.md R84). -/
def entryChan (e : Engine) (j : EdgeIdx) : Nat := (chField (edgeWord e.edge[j])).toNat

/-- DT of entry j of EDGE, in ticks (30_encoding.md R84). -/
def entryTicks (e : Engine) (j : EdgeIdx) : Nat := (dtField (edgeWord e.edge[j])).toNat

/-- Run one operation n times, stopping where it stops. -/
def execTimes (i : Instr) : Nat → State → Result
  | 0, s => .next s
  | n + 1, s =>
    match exec i s with
    | .next t => execTimes i n t
    | .fault r => .fault r
    | .refused r => .refused r

/-- The invariant of the reachable states. -/
structure EngineInv (e : Engine) : Prop where
  /-- A positive delta points at the target (10_state.md R24). -/
  upward : ∀ c : Chan, 0 < e.dpf[c].toInt → e.cur[c].toNat ≤ q16 e.tgt[c]
  /-- A negative delta points at the target (10_state.md R24). -/
  downward : ∀ c : Chan, e.dpf[c].toInt < 0 → q16 e.tgt[c] ≤ e.cur[c].toNat
  /-- A limp channel has width 0 (45_host_interface.md R189). -/
  limp : ∀ c : Chan, e.tgt[c] = 0 → e.cur[c] = 0
  /-- A current width with whole part 0xFFFF has fraction 0 (45_host_interface.md R187). -/
  widest : ∀ c : Chan, e.cur[c].toNat ≤ 0xFFFF0000
  /-- Every stored edge word names a channel (30_encoding.md R89). -/
  channels : ∀ j : EdgeIdx, entryChan e j < 12
  /-- No interrupt is left pending between steps (45_host_interface.md R193). -/
  noPending : e.ifl = false
  /-- IE and EN are set together (60_exceptions.md R205). -/
  enables : e.ie = e.en
  /-- The pins are outputs exactly while the engine is enabled (10_state.md R40). -/
  outputs : ∀ c : Chan, e.poe[c] = e.en

/-- At most `bound` TICKs between two SERVICE turns, none of the turns a reset, with k TICKs already counted
since the last SERVICE (70_reset_and_hazards.md R241, M_PERIOD_MAX = bound). -/
def paced (bound : Nat) : Nat → List Config.Turn → Bool
  | _, [] => true
  | k, t :: rest =>
    !t.reset &&
      match t.event with
      | .command _ => paced bound k rest
      | .service => paced bound 0 rest
      | .tick => decide (k + 1 ≤ bound) && paced bound (k + 1) rest

/-- The smallest number of ticks between the last edge of a table and the next frame, for any widths
(70_reset_and_hazards.md R241). -/
def regenerationWindow (p : Config.Params) : Nat :=
  Config.frameTicks - (Config.nGroups - 1) * Config.groupSlotTicks - 2 * p.risingEdgeSpacing - (p.maxPulse + 1)

/-- The ticks up to the next compare match, that of the match included: 1 to 65536 (44_dispatch.md R161). -/
def ticksToMatch (e : Engine) : Nat := (e.tcmp - e.tcnt - 1).toNat + 1

/-- The ticks since the last SERVICE turn after one more turn, k before it (70_reset_and_hazards.md R241). -/
def ticksSinceService (k : Nat) (t : Config.Turn) : Nat :=
  match t.event with
  | .command _ => k
  | .service => 0
  | .tick => k + 1

/-- The regeneration deadline as an invariant, with k ticks since the last SERVICE and at most `bound` of them between two
(70_reset_and_hazards.md R240, R241): a drained table leaves more ticks to the match than may still pass before a SERVICE,
and a table in use is one that SCHED wrote. -/
structure ServiceOnTime (p : Config.Params) (bound k : Nat) (e : Engine) : Prop where
  enabled : e.en = true
  listening : e.ie = true
  noPending : e.ifl = false
  noUnderrun : e.underrun = false
  inTime : e.cursor = 24 → bound < k + ticksToMatch e
  table : e.cursor ≠ 24 → ∃ d : Engine, e.edge = (sched p d).edge

/-- Whether a turn is one of time, with the reset input not asserted. -/
def isTickTurn (t : Config.Turn) : Bool := !t.reset && t.event == .tick

/-- Whether a turn is one of the sequencer, with the reset input not asserted. -/
def isServiceTurn (t : Config.Turn) : Bool := !t.reset && t.event == .service

end Sys2Proof.Machine
end

