-- ==== Sys2Proof/Certificates/Slice0/Obligations.lean ====
section
/-! DEFINITION. The statements for the provers. In a frame of the form `t = { s with eng := { s.eng with f := t.eng.f } }`
every field but f, of the engine and of the model around it, is unchanged. -/

open Sys2Proof Sys2Proof.Machine

/-! Encodings. -/

/-- 30_encoding.md R82, R83: the OP map of format C; CHN, RSV and IMM take every value, and the ones an operation does
not use are ignored. -/
def Obligations.CommandWordsDecodeByOpMap : Prop :=
  ∀ (chn : BitVec 4) (rsv : BitVec 8) (imm : BitVec 16),
    decode .commandPort (0x0#4 ++ chn ++ rsv ++ imm) = .ok .reserved0 ∧
    decode .commandPort (0x1#4 ++ chn ++ rsv ++ imm) = .ok (.setw chn imm) ∧
    decode .commandPort (0x2#4 ++ chn ++ rsv ++ imm) = .ok (.sets chn imm) ∧
    decode .commandPort (0x3#4 ++ chn ++ rsv ++ imm) = .ok (.sett imm) ∧
    decode .commandPort (0x4#4 ++ chn ++ rsv ++ imm) = .ok .go ∧
    decode .commandPort (0x5#4 ++ chn ++ rsv ++ imm) = .ok (.hold chn) ∧
    decode .commandPort (0x6#4 ++ chn ++ rsv ++ imm) = .ok .start ∧
    decode .commandPort (0x7#4 ++ chn ++ rsv ++ imm) = .ok .reserved7 ∧
    decode .commandPort (0x8#4 ++ chn ++ rsv ++ imm) = .ok (.rdcur chn) ∧
    decode .commandPort (0x9#4 ++ chn ++ rsv ++ imm) = .ok (.rdtgt chn) ∧
    decode .commandPort (0xA#4 ++ chn ++ rsv ++ imm) = .ok (.rdstat chn) ∧
    decode .commandPort (0xB#4 ++ chn ++ rsv ++ imm) = .ok .rdrem ∧
    decode .commandPort (0xC#4 ++ chn ++ rsv ++ imm) = .ok .rdfrm ∧
    decode .commandPort (0xD#4 ++ chn ++ rsv ++ imm) = .ok (.rdedge imm) ∧
    decode .commandPort (0xE#4 ++ chn ++ rsv ++ imm) = .ok .rdsys ∧
    decode .commandPort (0xF#4 ++ chn ++ rsv ++ imm) = .ok .reservedF

/-- 30_encoding.md R84 to R86: the operation map of format E; and the words that R89, which the spec derives, calls no edge
word. The names of the two errors, and that the high bits are tested before CH, are the model's choice (assumption 17). -/
def Obligations.EdgeWordsDecodeByActField : Prop :=
  ∀ (high : BitVec 11) (act : BitVec 1) (ch : BitVec 4) (dt : BitVec 16),
    decode .edgeTable (high ++ act ++ ch ++ dt) =
      if high ≠ 0 then .error .edgeHighBitsSet
      else if 12 ≤ ch.toNat then .error .edgeChannelAbove11
      else if act = 1 then .ok (.eset ch dt)
      else .ok (.eclr ch dt)

/-- Every operation that has an encoding is read back from it, at the place its format belongs to, with every operand at
every value the encoding admits; the other nine are the internal ones (30_encoding.md R91, R94). -/
def Obligations.DecodeReadsBackEveryEncoding : Prop :=
  ∀ i : Instr, i.wellFormed = true →
    (∃ p w, encode i = some (p, w) ∧ decode p w = .ok i) ∨
    (encode i = none ∧ i ∈ [Instr.service, .profile, .frame, .accum, .sched, .reload, .tick, .dispatch, .reset])

/-- A few words written out in spec/95_test_vectors.md, V81, V83, V86, V87, V89, V91, V92. -/
def Obligations.WrittenOutWordsDecode : Prop :=
  decode .commandPort 0x120007D0#32 = .ok (.setw 2 2000) ∧
  decode .commandPort 0x200002EE#32 = .ok (.sets 0 750) ∧
  decode .commandPort 0x57000000#32 = .ok (.hold 7) ∧
  decode .commandPort 0x60000000#32 = .ok .start ∧
  decode .commandPort 0xD0000017#32 = .ok (.rdedge 23) ∧
  decode .edgeTable 0x000B28DD#32 = .ok (.eclr 11 10461) ∧
  decode .edgeTable 0x001A01CB#32 = .ok (.eset 10 459)

/-! Host commands that write. -/

/-- 45_host_interface.md R181. -/
def Obligations.SetwMarksChannelAndStoresWidth : Prop :=
  ∀ (ch : BitVec 4) (width : BitVec 16) (s : State),
    decode .commandPort (0x1#4 ++ ch ++ 0#8 ++ width) = .ok (.setw ch width) ∧
    (12 ≤ ch.toNat → exec (.setw ch width) s = .next s) ∧
    (ch.toNat < 12 → ∃ t, exec (.setw ch width) s = .next t ∧
      t = { s with eng := { s.eng with pc := t.eng.pc, pw := t.eng.pw } } ∧
      ∀ c : Chan, t.eng.pc[c] = (if c.val = ch.toNat then true else s.eng.pc[c]) ∧
        t.eng.pw[c] = (if c.val = ch.toNat then width else s.eng.pw[c]))

/-- 45_host_interface.md R182, with the reset of the speed by the next PROFILE. -/
def Obligations.SetsStoresSpeedAndCommandsNothing : Prop :=
  ∀ (ch : BitVec 4) (speed : BitVec 16) (s : State),
    decode .commandPort (0x2#4 ++ ch ++ 0#8 ++ speed) = .ok (.sets ch speed) ∧
    (12 ≤ ch.toNat → exec (.sets ch speed) s = .next s) ∧
    (ch.toNat < 12 → ∃ t, exec (.sets ch speed) s = .next t ∧
      t = { s with eng := { s.eng with ps := t.eng.ps } } ∧
      (∀ c : Chan, t.eng.ps[c] = (if c.val = ch.toNat then speed else s.eng.ps[c])) ∧
      (s.eng.ready = true → ∃ u, exec .profile t = .next u ∧ ∀ c : Chan, u.eng.ps[c] = 0xFFFF))

/-- 45_host_interface.md R183, with the value kept by the next commit. -/
def Obligations.SettStoresStickyDuration : Prop :=
  ∀ (chn : BitVec 4) (ms : BitVec 16) (s : State),
    decode .commandPort (0x3#4 ++ chn ++ 0#8 ++ ms) = .ok (.sett ms) ∧
    exec (.sett ms) s = .next { s with eng := { s.eng with moveT := ms } } ∧
    ∀ t u, exec .profile t = .next u → u.eng.moveT = t.eng.moveT

/-- 45_host_interface.md R184: READY is raised; with no channel commanded the PROFILE that follows only clears READY and
resets the slots; the next SERVICE runs PROFILE; while EN = 0 the command stays pending. -/
def Obligations.GoRaisesReady : Prop :=
  ∀ s : State,
    (∀ (chn : BitVec 4) (imm : BitVec 16), decode .commandPort (0x4#4 ++ chn ++ 0#8 ++ imm) = .ok .go) ∧
    exec .go s = .next { s with eng := { s.eng with ready := true } } ∧
    (s.eng.ready = true → exec .go s = .next s) ∧
    (∀ t u, exec .go s = .next t → s.eng.en = false → (takeTurn t).1.reset = false → step t = .next u →
      u.eng.ready = true) ∧
    (∀ t, exec .go s = .next t → s.eng.en = true → ∃ p, exec .profile t = .next p ∧
      (s.eng.cursor ≠ 24 → exec .service t = .next p) ∧ (s.eng.cursor = 24 → exec .service t = exec .frame p)) ∧
    ((∀ c : Chan, s.eng.pc[c] = false) → ∀ t, exec .go s = .next t → ∃ u, exec .profile t = .next u ∧
      u = { t with eng := { t.eng with ready := false, pc := u.eng.pc, ps := u.eng.ps } } ∧
      ∀ c : Chan, u.eng.pc[c] = false ∧ u.eng.ps[c] = 0xFFFF)

/-- 45_host_interface.md R185 in both modes of HOLD_MODE; the channel then reports holding, or limp. -/
def Obligations.HoldForcesCurrentToEqualTarget : Prop :=
  ∀ (ch : BitVec 4) (s : State),
    (∀ imm : BitVec 16, decode .commandPort (0x5#4 ++ ch ++ 0#8 ++ imm) = .ok (.hold ch)) ∧
    (12 ≤ ch.toNat → exec (.hold ch) s = .next s) ∧
    (ch.toNat < 12 → ∃ t, exec (.hold ch) s = .next t ∧
      t = { s with eng := { s.eng with tgt := t.eng.tgt, cur := t.eng.cur, dpf := t.eng.dpf } } ∧
      ∀ c : Chan,
        (c.val ≠ ch.toNat →
          t.eng.tgt[c] = s.eng.tgt[c] ∧ t.eng.cur[c] = s.eng.cur[c] ∧ t.eng.dpf[c] = s.eng.dpf[c]) ∧
        (c.val = ch.toNat → t.eng.dpf[c] = 0 ∧ t.eng.cur[c].toNat = t.eng.tgt[c].toNat * 65536 ∧
          (s.cfg.holdMode = .freeze → t.eng.tgt[c].toNat = s.eng.cur[c].toNat / 65536) ∧
          (s.cfg.holdMode = .jump → t.eng.tgt[c] = s.eng.tgt[c]) ∧
          exec (.rdstat ch) t = .next { t with resp := some (if t.eng.tgt[c] = 0 then 0 else 2) }))

/-- 45_host_interface.md R186. -/
def Obligations.StartEnablesEngineOnce : Prop :=
  ∀ s : State,
    (∀ (chn : BitVec 4) (imm : BitVec 16), decode .commandPort (0x6#4 ++ chn ++ 0#8 ++ imm) = .ok .start) ∧
    (s.eng.en = true → exec .start s = .next s) ∧
    (s.eng.en = false → ∃ t, exec .start s = .next t ∧
      t = { s with eng := { s.eng with en := true, ie := true, poe := t.eng.poe, tcmp := t.eng.tcmp } } ∧
      (∀ c : Chan, t.eng.poe[c] = true) ∧
      t.eng.tcmp.toNat = (s.eng.tcnt.toNat + s.cfg.startLeadTicks) % 2 ^ 16)

/-- 30_encoding.md R87: the reserved codes change nothing and answer nothing; 30_encoding.md R82, R93: neither does a write
command answer. That a step which answers nothing leaves the response port empty is the model's choice (assumption 4), and
so is the script a turn is taken from (assumption 2). -/
def Obligations.ReservedWordsDroppedWritesUnanswered : Prop :=
  ∀ s : State,
    exec .reserved0 s = .next s ∧ exec .reserved7 s = .next s ∧ exec .reservedF s = .next s ∧
    ∀ (w : Word) (rest : List Config.Turn), s.script = ⟨false, .command w⟩ :: rest →
      (w.getLsbD 31 = false ∨ w.extractLsb' 28 4 = 0xF#4) →
      ∃ t, step s = .next t ∧ t.resp = none ∧
        (w.extractLsb' 28 4 = 0x0#4 ∨ w.extractLsb' 28 4 = 0x7#4 ∨ w.extractLsb' 28 4 = 0xF#4 →
          t = { s with script := rest, resp := none })

/-! Host commands that read. -/

/-- 45_host_interface.md R187, R188: a valid index answers the register, 12 and above answers 0xFFFFFFFF; nothing else
of the state changes. -/
def Obligations.RdcurRdtgtAnswerChannelWidths : Prop :=
  ∀ (ch : BitVec 4) (s : State),
    decode .commandPort (0x8#4 ++ ch ++ 0#24) = .ok (.rdcur ch) ∧
    decode .commandPort (0x9#4 ++ ch ++ 0#24) = .ok (.rdtgt ch) ∧
    (12 ≤ ch.toNat → exec (.rdcur ch) s = .next { s with resp := some 0xFFFFFFFF#32 } ∧
      exec (.rdtgt ch) s = .next { s with resp := some 0xFFFFFFFF#32 }) ∧
    ∀ c : Chan, c.val = ch.toNat →
      exec (.rdcur ch) s = .next { s with resp := some s.eng.cur[c] } ∧
      exec (.rdtgt ch) s = .next { s with resp := some (0#16 ++ s.eng.tgt[c]) }

/-- 45_host_interface.md R189. -/
def Obligations.RdstatAnswersStatusCode : Prop :=
  ∀ (ch : BitVec 4) (s : State),
    decode .commandPort (0xA#4 ++ ch ++ 0#24) = .ok (.rdstat ch) ∧
    (12 ≤ ch.toNat → exec (.rdstat ch) s = .next { s with resp := some 0xFFFFFFFF#32 }) ∧
    ∀ c : Chan, c.val = ch.toNat →
      let code : Word :=
        if s.eng.tgt[c].toNat = 0 then 0#32
        else if s.eng.cur[c].toNat ≠ s.eng.tgt[c].toNat * 65536 then 1#32
        else 2#32
      exec (.rdstat ch) s = .next { s with resp := some code }

/-- 45_host_interface.md R190, R191. -/
def Obligations.RdremRdfrmAnswerCounters : Prop :=
  ∀ s : State,
    decode .commandPort 0xB0000000#32 = .ok .rdrem ∧ decode .commandPort 0xC0000000#32 = .ok .rdfrm ∧
    exec .rdrem s = .next { s with resp := some (0#16 ++ s.eng.remain) } ∧
    exec .rdfrm s = .next { s with resp := some s.eng.frameCnt }

/-- 45_host_interface.md R192: all 16 bits of the index count, and bits 31:21 of a valid answer are 0. -/
def Obligations.RdedgeAnswersEdgeWord : Prop :=
  ∀ (j : BitVec 16) (s : State),
    decode .commandPort (0xD000#16 ++ j) = .ok (.rdedge j) ∧
    (24 ≤ j.toNat → exec (.rdedge j) s = .next { s with resp := some 0xFFFFFFFF#32 }) ∧
    ∀ i : EdgeIdx, i.val = j.toNat →
      exec (.rdedge j) s = .next { s with resp := some (0#11 ++ s.eng.edge[i]) }

/-- 45_host_interface.md R193 and the layout of the system word in 30_encoding.md R93, bit by bit. -/
def Obligations.RdsysAnswersSystemWord : Prop :=
  ∀ s : State, decode .commandPort 0xE0000000#32 = .ok .rdsys ∧ ∃ w : Word, exec .rdsys s = .next { s with resp := some w } ∧
    (w.extractLsb' 0 5).toNat = s.eng.cursor.val ∧ w.extractLsb' 5 3 = 0 ∧
    w.getLsbD 8 = s.eng.en ∧ w.getLsbD 9 = s.eng.ie ∧ w.getLsbD 10 = s.eng.ifl ∧
    w.getLsbD 11 = s.eng.ready ∧ w.getLsbD 12 = s.eng.underrun ∧ w.extractLsb' 13 19 = 0

/-- 30_encoding.md R88 b, where the spec derives it: no read with a valid index answers 0xFFFFFFFF, in the states of the
invariant. -/
def Obligations.ValidReadsNeverAnswerAllOnes : Prop :=
  ∀ (s : State) (t : State), EngineInv s.eng →
    (∀ ch : BitVec 4, ch.toNat < 12 →
      (exec (.rdcur ch) s = .next t ∨ exec (.rdtgt ch) s = .next t ∨ exec (.rdstat ch) s = .next t) →
      t.resp ≠ some 0xFFFFFFFF#32) ∧
    (∀ j : BitVec 16, j.toNat < 24 → exec (.rdedge j) s = .next t → t.resp ≠ some 0xFFFFFFFF#32)

/-- 45_host_interface.md R196, R210: no command word writes EDGE, CURSOR, TCNT, IF, POUT, REMAIN or FRAMECNT, none clears
EN, IE or FAULT_UNDERRUN, every word is accepted, and a word with bit 31 set changes no state of the engine. (R196 also
lists TCMP, IE and DPF, which START and HOLD write by their own rules R186 and R185; assumption 14.) -/
def Obligations.NoCommandWordTouchesDispatcherState : Prop :=
  ∀ (w : Word) (s : State), ∃ t, exec (decodeCommand w) s = .next t ∧
    t = { s with
      resp := t.resp
      eng := { s.eng with
        tgt := t.eng.tgt, cur := t.eng.cur, dpf := t.eng.dpf, pc := t.eng.pc, pw := t.eng.pw, ps := t.eng.ps
        moveT := t.eng.moveT, ready := t.eng.ready, tcmp := t.eng.tcmp, ie := t.eng.ie, en := t.eng.en
        poe := t.eng.poe } } ∧
    (s.eng.en = true → t.eng.en = true) ∧ (s.eng.ie = true → t.eng.ie = true) ∧
    (w.getLsbD 31 = true → t.eng = s.eng)

/-! PROFILE. -/

/-- 41_profile.md R113 to R115: the duration is the maximum of MOVE_T and the votes of the commanded channels with no
sentinel, each vote formed exactly and clipped to 16 bits. -/
def Obligations.MoveDurationIsMaximumOfVotes : Prop :=
  ∀ e : Engine,
    let voting := fun c : Chan => e.pc[c] = true ∧ e.pw[c].toNat ≠ 0 ∧ e.pw[c].toNat ≠ 0xFFFF ∧
      e.cur[c].toNat / 65536 ≠ 0 ∧ e.cur[c].toNat / 65536 ≠ 0xFFFF
    let voteOf := fun c : Chan => min 0xFFFF
      (1000 * ((e.pw[c].toNat : Int) - (e.cur[c].toNat / 65536 : Nat)).natAbs /
        (if e.ps[c].toNat = 0 then 1 else e.ps[c].toNat))
    e.moveT.toNat ≤ moveDuration e ∧ (∀ c, voting c → voteOf c ≤ moveDuration e) ∧
    (moveDuration e = e.moveT.toNat ∨ ∃ c, voting c ∧ moveDuration e = voteOf c)

/-- 41_profile.md R112, R120, R121, R104: PROFILE clears READY and every pending slot, leaves a channel that is not
commanded alone, and writes nothing but READY, TGT, CUR, DPF, REMAIN, PC and PS. -/
def Obligations.ProfileConsumesPendingFile : Prop :=
  ∀ s : State, s.eng.ready = true → ∃ t, exec .profile s = .next t ∧
    t = { s with eng := { s.eng with
      ready := false, tgt := t.eng.tgt, cur := t.eng.cur, dpf := t.eng.dpf, remain := t.eng.remain
      pc := t.eng.pc, ps := t.eng.ps } } ∧
    ∀ c : Chan, t.eng.pc[c] = false ∧ t.eng.ps[c] = 0xFFFF ∧
      (s.eng.pc[c] = false →
        t.eng.tgt[c] = s.eng.tgt[c] ∧ t.eng.cur[c] = s.eng.cur[c] ∧ t.eng.dpf[c] = s.eng.dpf[c])

/-- 41_profile.md R117, R118: a commanded channel takes its new target, and snaps when a sentinel is involved or the
duration is 0; otherwise its current width stays. -/
def Obligations.ProfileSnapsSentinelsAndZeroDuration : Prop :=
  ∀ s : State, s.eng.ready = true → ∃ t, exec .profile s = .next t ∧
    ∀ c : Chan, s.eng.pc[c] = true → t.eng.tgt[c] = s.eng.pw[c] ∧
      if s.eng.pw[c].toNat = 0 ∨ s.eng.pw[c].toNat = 0xFFFF ∨ s.eng.cur[c].toNat / 65536 = 0 ∨
          s.eng.cur[c].toNat / 65536 = 0xFFFF ∨ moveDuration s.eng = 0
      then t.eng.cur[c].toNat = s.eng.pw[c].toNat * 65536 ∧ t.eng.dpf[c] = 0
      else t.eng.cur[c] = s.eng.cur[c]

/-- 41_profile.md R116 with R126: the stored delta of a time-profiled channel is the exact quotient of
20 * (q16(PW) - CUR) by the duration, rounded as DELTA_ROUND says and never clipped. -/
def Obligations.ProfileDeltaIsQuotientRounded : Prop :=
  ∀ (s : State) (c : Chan), s.eng.ready = true → timeProfiled s.eng (moveDuration s.eng) c = true →
    ∃ t, exec .profile s = .next t ∧
      let n : Int := 20 * ((s.eng.pw[c].toNat : Int) * 65536 - s.eng.cur[c].toNat)
      let d : Int := t.eng.dpf[c].toInt
      let dur : Int := moveDuration s.eng
      (0 ≤ n → 0 ≤ d) ∧ (n ≤ 0 → d ≤ 0) ∧
      (s.cfg.deltaRound = .away → |n| ≤ dur * |d| ∧ dur * |d| < |n| + dur) ∧
      (s.cfg.deltaRound = .trunc → dur * |d| ≤ |n| ∧ |n| < dur * |d| + dur)

/-- 41_profile.md R119: REMAIN becomes the duration if some commanded channel took the delta branch, and is unchanged
otherwise. -/
def Obligations.ProfileSetsRemainingTime : Prop :=
  ∀ s : State, s.eng.ready = true → ∃ t, exec .profile s = .next t ∧
    if ∃ c : Chan, s.eng.pc[c] = true ∧ s.eng.pw[c].toNat ≠ 0 ∧ s.eng.pw[c].toNat ≠ 0xFFFF ∧
        s.eng.cur[c].toNat / 65536 ≠ 0 ∧ s.eng.cur[c].toNat / 65536 ≠ 0xFFFF ∧ moveDuration s.eng ≠ 0
    then t.eng.remain.toNat = moveDuration s.eng
    else t.eng.remain = s.eng.remain

/-- 41_profile.md R123, which the spec derives: the same command committed twice with no frame between leaves the same
targets, widths and deltas. -/
def Obligations.RepeatedCommandGivesSameSchedule : Prop :=
  ∀ s t : State, s.eng.ready = true → exec .profile s = .next t →
    ∃ u, exec .profile { t with eng := { t.eng with ready := true, pc := s.eng.pc, pw := s.eng.pw, ps := s.eng.ps } } =
        .next u ∧
      u.eng.tgt = t.eng.tgt ∧ u.eng.cur = t.eng.cur ∧ u.eng.dpf = t.eng.dpf

/-! ACCUM. -/

/-- 42_accumulate.md R131 to R135: every channel adds its delta and is clamped on the exact sum; REMAIN goes down by 20,
floored at 0; FRAMECNT goes up by 1, modulo 2^32; nothing else changes. -/
def Obligations.AccumAddsAndClampsExactly : Prop :=
  ∀ s : State, s.eng.cursor = 24 → ∃ t, exec .accum s = .next t ∧
    t = { s with eng := { s.eng with remain := t.eng.remain, cur := t.eng.cur, frameCnt := t.eng.frameCnt } } ∧
    t.eng.remain.toNat = s.eng.remain.toNat - 20 ∧
    t.eng.frameCnt.toNat = (s.eng.frameCnt.toNat + 1) % 2 ^ 32 ∧
    ∀ c : Chan,
      let target : Int := (s.eng.tgt[c].toNat : Int) * 65536
      let d : Int := s.eng.dpf[c].toInt
      let sum : Int := s.eng.cur[c].toNat + d
      (t.eng.cur[c].toNat : Int) =
        if 0 < d ∧ target ≤ sum then target else if d < 0 ∧ sum ≤ target then target else sum

/-- 42_accumulate.md R137, which the spec derives from R131 and R24: in the states of the invariant the new width lies
between the old width and the target, ends included. -/
def Obligations.AccumApproachesTargetMonotonically : Prop :=
  ∀ s : State, s.eng.cursor = 24 → EngineInv s.eng → ∃ t, exec .accum s = .next t ∧
    ∀ c : Chan,
      (s.eng.cur[c].toNat ≤ t.eng.cur[c].toNat ∧ t.eng.cur[c].toNat ≤ s.eng.tgt[c].toNat * 65536) ∨
      (s.eng.tgt[c].toNat * 65536 ≤ t.eng.cur[c].toNat ∧ t.eng.cur[c].toNat ≤ s.eng.cur[c].toNat)

/-- 41_profile.md R124 (§8 property 1), which the spec derives: with DELTA_ROUND = away a time-profiled channel is
exactly at its target after ceil(duration / 20) runs of ACCUM, and stays there. -/
def Obligations.ProfiledChannelArrivesInCeilFrames : Prop :=
  ∀ (s : State) (c : Chan), s.eng.ready = true → s.eng.cursor = 24 → s.cfg.deltaRound = .away →
    timeProfiled s.eng (moveDuration s.eng) c = true →
    ∃ p, exec .profile s = .next p ∧
      ∀ n : Nat, (moveDuration s.eng + 19) / 20 ≤ n →
        ∃ t, execTimes .accum n p = .next t ∧ t.eng.cur[c].toNat = s.eng.pw[c].toNat * 65536

/-! SCHED. -/

/-- 43_schedule.md R141 to R147: each group's channels in the order of (key, channel), rising edges RISING_EDGE_SPACING
apart from the group's base time, each falling edge one key later, the actions, and the deltas; nothing but EDGE
changes. -/
def Obligations.SchedPlacesSortedGroups : Prop :=
  ∀ s : State, s.eng.cursor = 24 → ∃ t, exec .sched s = .next t ∧
    t = { s with eng := { s.eng with edge := t.eng.edge } } ∧
    let k := fun c : Chan =>
      let w := s.eng.cur[c].toNat / 65536
      if w < s.cfg.minPulse then s.cfg.minPulse - 1 else if s.cfg.maxPulse < w then s.cfg.maxPulse + 1 else w
    ∀ g : Fin 4, ∃ p : Fin 3 → Chan,
      (∀ i, (p i).val / 3 = g.val) ∧
      (∀ i j, i < j → k (p i) < k (p j) ∨ (k (p i) = k (p j) ∧ p i < p j)) ∧
      let rise := fun i : Fin 3 => 3000 * g.val + s.cfg.risingEdgeSpacing * i.val
      let fall := fun i : Fin 3 => rise i + k (p i)
      let nextRise := if g.val < 3 then 3000 * (g.val + 1) else 20000
      (∀ (i : Fin 3) (j : EdgeIdx), j.val = 6 * g.val + i.val →
        entryChan t.eng j = (p i).val ∧ entrySets t.eng j = decide (s.cfg.minPulse ≤ k (p i)) ∧
        rise i + entryTicks t.eng j = if i = 0 then rise 1 else if i = 1 then rise 2 else fall 0) ∧
      (∀ (i : Fin 3) (j : EdgeIdx), j.val = 6 * g.val + 3 + i.val →
        entryChan t.eng j = (p i).val ∧ entrySets t.eng j = decide (s.cfg.maxPulse < k (p i)) ∧
        fall i + entryTicks t.eng j = if i = 0 then fall 1 else if i = 1 then fall 2 else nextRise)

/-- 43_schedule.md R148, which the spec derives: the 24 deltas add up to FRAME_TICKS. -/
def Obligations.SchedDeltasAddUpToFrame : Prop :=
  ∀ s : State, s.eng.cursor = 24 → ∃ t, exec .sched s = .next t ∧ ∑ j : EdgeIdx, entryTicks t.eng j = 20000

/-- 43_schedule.md R149 and 70_reset_and_hazards.md R240, which the spec derives: no two edges are closer than
RISING_EDGE_SPACING, and the last delta leaves the regeneration window. -/
def Obligations.SchedKeepsMinimumSpacing : Prop :=
  ∀ s : State, s.eng.cursor = 24 → ∃ t, exec .sched s = .next t ∧
    (∀ j : EdgeIdx, s.cfg.risingEdgeSpacing ≤ entryTicks t.eng j ∧ entryTicks t.eng j ≤ 20000) ∧
    regenerationWindow s.cfg ≤ entryTicks t.eng 23

/-- 43_schedule.md R150, which the spec derives: a channel stands in exactly one rising slot and in the matching falling
slot of its own group. -/
def Obligations.SchedPlacesEveryChannelTwice : Prop :=
  ∀ s : State, s.eng.cursor = 24 → ∃ t, exec .sched s = .next t ∧
    ∀ c : Chan, ∃ i : Fin 3, ∀ j : EdgeIdx,
      entryChan t.eng j = c.val ↔ (j.val = 6 * (c.val / 3) + i.val ∨ j.val = 6 * (c.val / 3) + 3 + i.val)

/-- 43_schedule.md R150 and R152, which the spec derives: a group's six words depend on nothing but the whole
microseconds of its own three channels. -/
def Obligations.SchedGroupsAreIndependent : Prop :=
  ∀ (s s' t t' : State) (g : Fin 4), s.cfg = s'.cfg → exec .sched s = .next t → exec .sched s' = .next t' →
    (∀ c : Chan, c.val / 3 = g.val → s.eng.cur[c].toNat / 65536 = s'.eng.cur[c].toNat / 65536) →
    ∀ j : EdgeIdx, j.val / 6 = g.val → t.eng.edge[j] = t'.eng.edge[j]

/-- 43_schedule.md R151, which the spec derives: a channel whose width is a pulse is set by one entry and cleared by a
later one exactly its whole microseconds of ticks after; a forced-low channel has two clears, a forced-high one two
sets. -/
def Obligations.PulseLastsWholeMicroseconds : Prop :=
  ∀ s : State, s.eng.cursor = 24 → ∃ t, exec .sched s = .next t ∧
    ∀ c : Chan, ∃ r f : EdgeIdx, r < f ∧ entryChan t.eng r = c.val ∧ entryChan t.eng f = c.val ∧
      let w := s.eng.cur[c].toNat / 65536
      (w < s.cfg.minPulse → entrySets t.eng r = false ∧ entrySets t.eng f = false) ∧
      (s.cfg.maxPulse < w → entrySets t.eng r = true ∧ entrySets t.eng f = true) ∧
      (s.cfg.minPulse ≤ w → w ≤ s.cfg.maxPulse → entrySets t.eng r = true ∧ entrySets t.eng f = false ∧
        ∑ j : EdgeIdx, (if r ≤ j ∧ j < f then entryTicks t.eng j else 0) = w)

/-! The sequencer. -/

/-- 40_service_loop.md R102. -/
def Obligations.ReloadOnlyResetsCursor : Prop :=
  ∀ s : State, s.eng.cursor = 24 → exec .reload s = .next { s with eng := { s.eng with cursor := 0 } }

/-- 40_service_loop.md R101: FRAME is ACCUM, then SCHED, then RELOAD, each on the state the one before left. -/
def Obligations.FrameIsAccumSchedReload : Prop :=
  ∀ s : State, s.eng.cursor = 24 → ∃ a b t,
    exec .accum s = .next a ∧ exec .sched a = .next b ∧ exec .reload b = .next t ∧ exec .frame s = .next t

/-- 40_service_loop.md R100: PROFILE if READY = 1, then FRAME if CURSOR = 24, in that order. -/
def Obligations.ServiceCommitsThenBuildsFrame : Prop :=
  ∀ s : State, s.eng.en = true → ∃ p t,
    (if s.eng.ready = true then exec .profile s = .next p else p = s) ∧
    (if s.eng.cursor = 24 then exec .frame p = .next t else t = p) ∧
    exec .service s = .next t

/-- 10_state.md R35, 60_exceptions.md R202: a step that changes the Edge table starts with CURSOR = 24, or is RESET. -/
def Obligations.TableWrittenOnlyWhenDrained : Prop :=
  ∀ s t : State, step s = .next t → t.eng.edge ≠ s.eng.edge →
    (takeTurn s).1.reset = true ∨ (isServiceTurn (takeTurn s).1 = true ∧ s.eng.en = true ∧ s.eng.cursor = 24)

/-! Edge words, DISPATCH and TICK. -/

/-- 44_dispatch.md R163, R164: an edge word with a channel 0 to 11 executed with CURSOR below 24. -/
def Obligations.EdgeWordsDrivePinAndAdvance : Prop :=
  ∀ (ch : BitVec 4) (dt : BitVec 16) (s : State), ch.toNat < 12 → s.eng.cursor ≠ 24 →
    decode .edgeTable (0#11 ++ 1#1 ++ ch ++ dt) = .ok (.eset ch dt) ∧
    decode .edgeTable (0#11 ++ 0#1 ++ ch ++ dt) = .ok (.eclr ch dt) ∧
    (∃ t, exec (.eset ch dt) s = .next t ∧
      t = { s with eng := { s.eng with pout := t.eng.pout, cursor := t.eng.cursor, tcmp := s.eng.tcmp + dt } } ∧
      t.eng.cursor.val = s.eng.cursor.val + 1 ∧
      ∀ c : Chan, t.eng.pout[c] = if c.val = ch.toNat then true else s.eng.pout[c]) ∧
    (∃ t, exec (.eclr ch dt) s = .next t ∧
      t = { s with eng := { s.eng with pout := t.eng.pout, cursor := t.eng.cursor, tcmp := s.eng.tcmp + dt } } ∧
      t.eng.cursor.val = s.eng.cursor.val + 1 ∧
      ∀ c : Chan, t.eng.pout[c] = if c.val = ch.toNat then false else s.eng.pout[c])

/-- 44_dispatch.md R162, first branch: clear IF and execute the word at CURSOR, which sets or clears the pin of its
channel, advances the cursor and adds DT to the compare time modulo 2^16. -/
def Obligations.DispatchExecutesWordAtCursor : Prop :=
  ∀ (s : State) (j : EdgeIdx), s.eng.ifl = true → s.eng.ie = true → s.eng.cursor.val = j.val → entryChan s.eng j < 12 →
    ∃ t, exec .dispatch s = .next t ∧
      t = { s with eng := { s.eng with
        ifl := false, pout := t.eng.pout, cursor := t.eng.cursor, tcmp := t.eng.tcmp } } ∧
      t.eng.cursor.val = j.val + 1 ∧
      t.eng.tcmp.toNat = (s.eng.tcmp.toNat + entryTicks s.eng j) % 2 ^ 16 ∧
      ∀ c : Chan, t.eng.pout[c] = if c.val = entryChan s.eng j then entrySets s.eng j else s.eng.pout[c]

/-- 60_exceptions.md R203: a match with CURSOR = 24 sets FAULT_UNDERRUN, clears IF and changes nothing else. -/
def Obligations.UnderrunRecordsAndChangesNothingElse : Prop :=
  ∀ s : State, s.eng.ifl = true → s.eng.ie = true → s.eng.cursor = 24 →
    exec .dispatch s = .next { s with eng := { s.eng with ifl := false, underrun := true } }

/-- 44_dispatch.md R160, R161: the count, IF raised by a match of the new count, and DISPATCH in the same step where IF
and IE are set. -/
def Obligations.TickCountsAndDispatchesOnMatch : Prop :=
  ∀ s : State, s.eng.en = true →
    let counted : State := { s with eng := { s.eng with
      tcnt := s.eng.tcnt + 1
      ifl := s.eng.ifl || decide ((s.eng.tcnt.toNat + 1) % 2 ^ 16 = s.eng.tcmp.toNat) } }
    (counted.eng.ifl = true → s.eng.ie = true → exec .tick s = exec .dispatch counted) ∧
    (counted.eng.ifl = false ∨ s.eng.ie = false → exec .tick s = .next counted)

/-- 44_dispatch.md R168, 60_exceptions.md R210: a tick writes TCNT, IF, TCMP, CURSOR, FAULT_UNDERRUN and at most the one
pin that the word at CURSOR names, and nothing else. -/
def Obligations.TickTouchesOnlyTimerCursorAndOnePin : Prop :=
  ∀ s t : State, exec .tick s = .next t →
    t = { s with eng := { s.eng with
      tcnt := s.eng.tcnt + 1, ifl := t.eng.ifl, tcmp := t.eng.tcmp, cursor := t.eng.cursor
      underrun := t.eng.underrun, pout := t.eng.pout } } ∧
    (s.eng.underrun = true → t.eng.underrun = true) ∧
    ∀ c : Chan, t.eng.pout[c] ≠ s.eng.pout[c] →
      ∃ j : EdgeIdx, j.val = s.eng.cursor.val ∧ entryChan s.eng j = c.val ∧ t.eng.pout[c] = entrySets s.eng j ∧
        t.eng.cursor.val = s.eng.cursor.val + 1

/-- 44_dispatch.md R161, R167: n ticks none of which reaches TCMP change TCNT alone; so after a DISPATCH the next match
is exactly DT ticks later. The empty response port after them, and the script, are the model's choice (assumptions 4, 2). -/
def Obligations.TicksBeforeMatchOnlyCount : Prop :=
  ∀ (n : Nat) (s : State) (rest : List Config.Turn), 0 < n → s.eng.en = true → s.eng.ifl = false →
    s.script = List.replicate n ⟨false, .tick⟩ ++ rest →
    (∀ m : Nat, 1 ≤ m → m ≤ n → s.eng.tcnt + BitVec.ofNat 16 m ≠ s.eng.tcmp) →
    Host.Core.run core n s = .next { s with
      script := rest, resp := none, eng := { s.eng with tcnt := s.eng.tcnt + BitVec.ofNat 16 n } }

/-- 44_dispatch.md R170, which the spec derives: when the tick of EDGE[0] of a table built by SCHED comes next, EDGE[j]
is dispatched abs(j) ticks after it, and leaves the compare at the time of the following edge. -/
def Obligations.EdgesFireAtTheirAbsoluteTimes : Prop :=
  ∀ (s : State) (e : Engine) (j : EdgeIdx) (rest : List Config.Turn),
    s.eng.en = true → s.eng.ie = true → s.eng.ifl = false → s.eng.cursor = 0 →
    s.eng.edge = (sched s.cfg e).edge → s.eng.tcmp = s.eng.tcnt + 1 →
    s.script = List.replicate (edgeTime s.cfg (key s.cfg e) j + 1) ⟨false, .tick⟩ ++ rest →
    ∃ t, Host.Core.run core (edgeTime s.cfg (key s.cfg e) j + 1) s = .next t ∧
      t.eng.cursor.val = j.val + 1 ∧ t.eng.underrun = s.eng.underrun ∧
      t.eng.tcmp = s.eng.tcmp + BitVec.ofNat 16 (nextEdgeTime s.cfg (key s.cfg e) j) ∧
      ∀ c : Chan, c.val = entryChan s.eng j → t.eng.pout[c] = entrySets s.eng j

/-! Stops. -/

/-- The stops of the model outside the triggers of the internal operations (assumptions 8 and 10: the spec has no step
there) and on an edge word that names no channel (93_implementation_defined.md U7, assumption 9). -/
def Obligations.OperationsOutsideTheirTriggersStop : Prop :=
  ∀ s : State,
    (s.eng.en = false → exec .service s = .refused .engineDisabled ∧ exec .tick s = .refused .engineDisabled) ∧
    (s.eng.cursor ≠ 24 → exec .frame s = .refused .tableInUse ∧ exec .accum s = .refused .tableInUse ∧
      exec .sched s = .refused .tableInUse ∧ exec .reload s = .refused .tableInUse) ∧
    (¬(s.eng.ifl = true ∧ s.eng.ie = true) → exec .dispatch s = .refused .noInterrupt) ∧
    (∀ (ch : BitVec 4) (dt : BitVec 16), ch.toNat < 12 → s.eng.cursor = 24 →
      exec (.eset ch dt) s = .refused .noEdgeAtCursor ∧ exec (.eclr ch dt) s = .refused .noEdgeAtCursor) ∧
    (∀ (ch : BitVec 4) (dt : BitVec 16), 12 ≤ ch.toNat →
      exec (.eset ch dt) s = .fault .stuckEdgeWord ∧ exec (.eclr ch dt) s = .fault .stuckEdgeWord)

/-- 41_profile.md R110, the document's "no-op unless a command is `ready`" (assumption 15). -/
def Obligations.ProfileWithoutReadyChangesNothing : Prop :=
  ∀ s : State, s.eng.ready = false → exec .profile s = .next s

/-! Reset. -/

/-- 70_reset_and_hazards.md R230 with the table of 10_state.md R44: in any state RESET writes every reset value. -/
def Obligations.ResetWritesEveryResetValue : Prop :=
  ∀ s : State, ∃ t, exec .reset s = .next t ∧ t = { s with eng := State.reset.eng } ∧
    (∀ c : Chan, t.eng.tgt[c] = 0 ∧ t.eng.cur[c] = 0 ∧ t.eng.dpf[c] = 0 ∧ t.eng.pc[c] = false ∧ t.eng.pw[c] = 0 ∧
      t.eng.ps[c] = 0xFFFF ∧ t.eng.pout[c] = false ∧ t.eng.poe[c] = false) ∧
    (∀ j : EdgeIdx, t.eng.edge[j] = 0) ∧
    t.eng.moveT = 0 ∧ t.eng.ready = false ∧ t.eng.remain = 0 ∧ t.eng.frameCnt = 0 ∧ t.eng.cursor = 24 ∧
    t.eng.tcnt = 0 ∧ t.eng.tcmp = 0 ∧ t.eng.ifl = false ∧ t.eng.ie = false ∧ t.eng.en = false ∧
    t.eng.underrun = false

/-- 70_reset_and_hazards.md R233, 95_test_vectors.md V40: from reset, START and one SERVICE build the all-low table. -/
def Obligations.StartThenServiceBuildsAllLowTable : Prop :=
  ∃ s t, exec .start State.reset = .next s ∧ exec .service s = .next t ∧
    t.eng.cursor = 0 ∧ t.eng.frameCnt = 1 ∧ t.eng.tcmp = 20000 ∧
    (∀ j : EdgeIdx, entrySets t.eng j = false) ∧ entryTicks t.eng 2 = 459 ∧ entryTicks t.eng 23 = 10461

/-! The whole machine. -/

/-- A step runs the operation its turn selects: RESET while the reset input is asserted, the decoded command word, SERVICE
or TICK while EN = 1; a tick that matches executes the word decoded at CURSOR. The model's choices in it: that the turn comes
from the script (assumption 2), that with the script empty it is the free value `Config.turn` (assumption 1), and that every
step starts with the response port empty (assumption 4). -/
def Obligations.StepRunsDecodedInstruction : Prop :=
  (∀ (s : State) (rest : List Config.Turn) (ev : Config.Event), s.script = ⟨true, ev⟩ :: rest →
    step s = exec .reset { s with script := rest, resp := none }) ∧
  (∀ (s : State) (rest : List Config.Turn) (w : Word) (i : Instr), s.script = ⟨false, .command w⟩ :: rest →
    decode .commandPort w = .ok i → step s = exec i { s with script := rest, resp := none }) ∧
  (∀ (s : State) (rest : List Config.Turn), s.script = ⟨false, .service⟩ :: rest → s.eng.en = true →
    step s = exec .service { s with script := rest, resp := none }) ∧
  (∀ (s : State) (rest : List Config.Turn), s.script = ⟨false, .tick⟩ :: rest → s.eng.en = true →
    step s = exec .tick { s with script := rest, resp := none }) ∧
  (∀ (s : State) (rest : List Config.Turn) (j : EdgeIdx) (i : Instr), s.script = ⟨false, .tick⟩ :: rest →
    s.eng.en = true → s.eng.ie = true → s.eng.tcnt + 1 = s.eng.tcmp → s.eng.cursor.val = j.val →
    decode .edgeTable (edgeWord s.eng.edge[j]) = .ok i →
    step s = exec i { s with
      script := rest, resp := none, eng := { s.eng with tcnt := s.eng.tcnt + 1, ifl := false } }) ∧
  (∀ s : State, s.script = [] →
    step s = step { s with script := [Config.turn s.turnNo], turnNo := s.turnNo + 1 })

/-- 70_reset_and_hazards.md R232, 10_state.md R37: with EN = 0 a turn of the sequencer or of time changes nothing of the
engine and answers nothing. That such a turn stands still (assumption 8), the script it comes from (assumption 2) and the
empty response port (assumption 4) are the model's choice. -/
def Obligations.DisabledEngineStandsStill : Prop :=
  ∀ (s : State) (t : Config.Turn) (rest : List Config.Turn), s.script = t :: rest → s.eng.en = false →
    (isServiceTurn t = true ∨ isTickTurn t = true) → step s = .next { s with script := rest, resp := none }

/-- 70_reset_and_hazards.md R230 (93 U22): while the reset input is asserted the word on the command port is lost. The turn
that carries the level (assumption 16), the script (assumption 2) and the empty response port (assumption 4) are the
model's choice. -/
def Obligations.AssertedResetLosesCommand : Prop :=
  ∀ (s : State) (w w' : Word) (rest : List Config.Turn),
    ∃ t, step { s with script := ⟨true, .command w⟩ :: rest } = .next t ∧
      step { s with script := ⟨true, .command w'⟩ :: rest } = .next t ∧
      t.eng = State.reset.eng ∧ t.resp = none

/-- The invariant holds right after reset. -/
def Obligations.ResetStateMeetsInvariant : Prop :=
  EngineInv State.reset.eng

/-- Every step, from any state that meets the invariant and whatever the turn, keeps it: 10_state.md R24, R25 and the
places where the spec derives the other parts (`EngineInv`). -/
def Obligations.StepKeepsInvariant : Prop :=
  ∀ s t : State, EngineInv s.eng → step s = .next t → EngineInv t.eng

/-- 60_exceptions.md R200: from any state that meets the invariant every step, whatever the turn, answers a next state. -/
def Obligations.StepAlwaysCompletes : Prop :=
  ∀ s : State, EngineInv s.eng → ∃ t, step s = .next t

/-- 10_state.md R41: only RESET clears FAULT_UNDERRUN, EN, IE and POE, and only a SERVICE or RESET clears READY. -/
def Obligations.OnlyResetClearsStickyBits : Prop :=
  ∀ s t : State, step s = .next t → (takeTurn s).1.reset = false →
    (s.eng.underrun = true → t.eng.underrun = true) ∧ (s.eng.en = true → t.eng.en = true) ∧
    (s.eng.ie = true → t.eng.ie = true) ∧ (∀ c : Chan, s.eng.poe[c] = true → t.eng.poe[c] = true) ∧
    (s.eng.ready = true → t.eng.ready = false → isServiceTurn (takeTurn s).1 = true)

/-- 10_state.md R34, R39, 44_dispatch.md R165: outside RESET the cursor moves by one, in a tick, or from 24 to 0, in a
SERVICE; the pins change only in a tick, and only together with the cursor. -/
def Obligations.CursorAndPinsMoveInOrder : Prop :=
  ∀ s t : State, step s = .next t → (takeTurn s).1.reset = false →
    (t.eng.cursor = s.eng.cursor ∨
      (isTickTurn (takeTurn s).1 = true ∧ t.eng.cursor.val = s.eng.cursor.val + 1) ∨
      (isServiceTurn (takeTurn s).1 = true ∧ s.eng.cursor = 24 ∧ t.eng.cursor = 0)) ∧
    (t.eng.pout ≠ s.eng.pout → isTickTurn (takeTurn s).1 = true ∧ t.eng.cursor.val = s.eng.cursor.val + 1)

/-- 70_reset_and_hazards.md R241, which the spec derives: from START on, if at most `bound` ticks pass between two
SERVICE turns, bound being no more than the regeneration window and below START_LEAD_TICKS, then whatever the host sends
no underrun ever occurs. -/
def Obligations.PacedServiceNeverUnderruns : Prop :=
  ∀ (bound n : Nat) (s : State) (turns : List Config.Turn),
    EngineInv s.eng → s.eng.en = false → s.eng.cursor = 24 → s.eng.underrun = false →
    bound ≤ regenerationWindow s.cfg → bound < s.cfg.startLeadTicks →
    s.script = ⟨false, .command 0x60000000#32⟩ :: turns → paced bound 0 turns = true → n ≤ turns.length + 1 →
    ∃ t, Host.Core.run core n s = .next t ∧ t.eng.underrun = false

/-- 45_host_interface.md R186, 70_reset_and_hazards.md R241: START puts the deadline invariant `ServiceOnTime` in force, with
no tick counted, for every bound below START_LEAD_TICKS. -/
def Obligations.StartBeginsServiceOnTime : Prop :=
  ∀ (bound : Nat) (s : State),
    s.eng.en = false → s.eng.ifl = false → s.eng.underrun = false → s.eng.cursor = 24 → bound < s.cfg.startLeadTicks →
    ∃ t, exec .start s = .next t ∧ ServiceOnTime t.cfg bound 0 t.eng

/-- 70_reset_and_hazards.md R240, R241, which the spec derives: every paced step completes and keeps the deadline invariant
`ServiceOnTime`, in any state that meets it, for every bound that is no more than the regeneration window. -/
def Obligations.PacedStepKeepsServiceOnTime : Prop :=
  ∀ (bound k : Nat) (s : State) (turn : Config.Turn) (rest : List Config.Turn),
    bound ≤ regenerationWindow s.cfg → ServiceOnTime s.cfg bound k s.eng →
    s.script = turn :: rest → paced bound k [turn] = true →
    ∃ t, step s = .next t ∧ ServiceOnTime t.cfg bound (ticksSinceService k turn) t.eng
end

