-- ==== Sys2Proof/Laws/Arith.lean ====
section
/-! SUPPORT. What the arithmetic of 00_scope.md R9 and R10 computes, over Nat and Int. -/

namespace Sys2Proof.Machine

theorem q16_le (w : U16) : q16 w ≤ 0xFFFF0000 := by
  have := w.isLt
  unfold q16; omega

@[simp] theorem q16Word_toNat (w : U16) : (q16Word w).toNat = q16 w := by
  have := q16_le w
  simp only [q16Word, BitVec.toNat_ofNat]; omega

theorem us_lt (x : U32) : us x < 2 ^ 16 := by
  have := x.isLt
  unfold us; omega

/-- "For an unsigned x, us(q16(w)) = w" (00_scope.md R9). -/
@[simp] theorem us_q16Word (w : U16) : us (q16Word w) = w.toNat := by
  simp [us, q16]

@[simp] theorem us_ofNat_toNat (x : U32) : (BitVec.ofNat 16 (us x)).toNat = us x := by
  simp only [BitVec.toNat_ofNat]
  exact Nat.mod_eq_of_lt (us_lt x)

theorem isSent_iff (w : Nat) : isSent w = true ↔ w = 0 ∨ w = 0xFFFF := by
  simp [isSent, Config.sentinelHigh]

theorem clipU16_le (n : Nat) : clipU16 n ≤ 0xFFFF := by unfold clipU16; omega

theorem natAbs_sign_mul (n : Int) (q : Nat) (h : n = 0 → q = 0) : (n.sign * (q : Int)).natAbs = q := by
  rcases lt_trichotomy n 0 with hn | rfl | hn
  · rw [Int.sign_eq_neg_one_of_neg hn]; omega
  · simp [h rfl]
  · rw [Int.sign_eq_one_of_pos hn]; omega

theorem natAbs_divTrunc (n : Int) (d : Nat) : (divTrunc n d).natAbs = n.natAbs / d :=
  natAbs_sign_mul n _ (by rintro rfl; simp)

/-- div_away rounds the magnitude up (00_scope.md R10). -/
theorem natAbs_divAway (n : Int) (d : Nat) : (divAway n d).natAbs = (n.natAbs + (d - 1)) / d := by
  refine natAbs_sign_mul n _ ?_
  rintro rfl
  rcases Nat.eq_zero_or_pos d with rfl | hd
  · simp
  · exact Nat.div_eq_of_lt (by simp; omega)

/-- The vote's division, whose dividend is never negative (41_profile.md R113). -/
theorem divTrunc_natCast_toNat (n d : Nat) : (divTrunc (n : Int) d).toNat = n / d := by
  have h : 0 ≤ divTrunc (n : Int) d :=
    mul_nonneg (Int.sign_nonneg_iff.mpr (Int.natCast_nonneg n)) (Int.natCast_nonneg _)
  have := natAbs_divTrunc (n : Int) d
  rw [Int.natAbs_natCast] at this
  omega

/-- div_away never falls short of the exact quotient, and exceeds it by less than one (46 R261). -/
theorem divAway_bounds (n : Int) (d : Nat) (hd : 0 < d) :
    n.natAbs ≤ d * (divAway n d).natAbs ∧ d * (divAway n d).natAbs < n.natAbs + d := by
  rw [natAbs_divAway]
  have h1 := Nat.div_add_mod (n.natAbs + (d - 1)) d
  have h2 := Nat.mod_lt (n.natAbs + (d - 1)) hd
  omega

/-- div_trunc never exceeds the exact quotient, and falls short of it by less than one (46 R261). -/
theorem divTrunc_bounds (n : Int) (d : Nat) (hd : 0 < d) :
    d * (divTrunc n d).natAbs ≤ n.natAbs ∧ n.natAbs < d * (divTrunc n d).natAbs + d := by
  rw [natAbs_divTrunc]
  have h1 := Nat.div_add_mod n.natAbs d
  have h2 := Nat.mod_lt n.natAbs hd
  omega

theorem divDelta_nonneg (r : Config.DeltaRound) (n : Int) (d : Nat) (h : 0 ≤ n) : 0 ≤ divDelta r n d := by
  cases r <;> simp only [divDelta, divAway, divTrunc] <;>
    exact mul_nonneg (Int.sign_nonneg_iff.mpr h) (Int.natCast_nonneg _)

theorem divDelta_nonpos (r : Config.DeltaRound) (n : Int) (d : Nat) (h : n ≤ 0) : divDelta r n d ≤ 0 := by
  cases r <;> simp only [divDelta, divAway, divTrunc] <;>
    exact mul_nonpos_of_nonpos_of_nonneg (Int.sign_nonpos_iff.mpr h) (Int.natCast_nonneg _)

/-- sat_i32 leaves what fits alone (00_scope.md R10). -/
theorem satI32_of_fits (n : Int) (h1 : -2 ^ 31 ≤ n) (h2 : n < 2 ^ 31) : satI32 n = n := by
  unfold satI32; omega

theorem satI32_range (n : Int) : -2 ^ 31 ≤ satI32 n ∧ satI32 n < 2 ^ 31 := by
  unfold satI32; omega

/-- A value of the i32 range survives the register. -/
theorem toInt_ofInt_of_fits (n : Int) (h1 : -2 ^ 31 ≤ n) (h2 : n < 2 ^ 31) : (BitVec.ofInt 32 n).toInt = n := by
  rw [BitVec.toInt_ofInt, Int.bmod_eq_of_le (by norm_num; omega) (by norm_num; omega)]

end Sys2Proof.Machine
end

