-- ==== Sys2Proof/Laws/Decode.lean ====
section
/-! SUPPORT. The fields of an encoded word, one lemma each. -/

namespace Sys2Proof

theorem commandWord_toNat (op chn : BitVec 4) (imm : U16) :
    (commandWord op chn imm).toNat = op.toNat * 2 ^ 28 + chn.toNat * 2 ^ 24 + imm.toNat := by
  have := op.isLt; have := chn.isLt; have := imm.isLt
  simp only [commandWord, BitVec.toNat_ofNat]; omega

theorem edgeBits_toNat (act : Bool) (ch : BitVec 4) (dt : U16) :
    (edgeBits act ch dt).toNat = act.toNat * 2 ^ 20 + ch.toNat * 2 ^ 16 + dt.toNat := by
  have := act.toNat_le; have := ch.isLt; have := dt.isLt
  simp only [edgeBits, BitVec.toNat_ofNat]; omega

@[simp] theorem edgeWord_toNat (b : EdgeBits) : (edgeWord b).toNat = b.toNat := by
  have := b.isLt
  simp only [edgeWord, BitVec.toNat_setWidth]; omega

theorem extractLsb'_toNat_div {n : Nat} (start len : Nat) (w : BitVec n) :
    (w.extractLsb' start len).toNat = w.toNat / 2 ^ start % 2 ^ len := by
  simp [BitVec.extractLsb'_toNat, Nat.shiftRight_eq_div_pow]

@[simp] theorem opField_commandWord (op chn : BitVec 4) (imm : U16) : opField (commandWord op chn imm) = op := by
  apply BitVec.eq_of_toNat_eq
  have := op.isLt; have := chn.isLt; have := imm.isLt
  rw [opField, extractLsb'_toNat_div, commandWord_toNat]; omega

@[simp] theorem chnField_commandWord (op chn : BitVec 4) (imm : U16) : chnField (commandWord op chn imm) = chn := by
  apply BitVec.eq_of_toNat_eq
  have := op.isLt; have := chn.isLt; have := imm.isLt
  rw [chnField, extractLsb'_toNat_div, commandWord_toNat]; omega

@[simp] theorem immField_commandWord (op chn : BitVec 4) (imm : U16) : immField (commandWord op chn imm) = imm := by
  apply BitVec.eq_of_toNat_eq
  have := op.isLt; have := chn.isLt; have := imm.isLt
  rw [immField, extractLsb'_toNat_div, commandWord_toNat]; omega

/-- Bits 31:21 of a stored edge word are 0 by construction (30_encoding.md R89). -/
@[simp] theorem edgeHighField_edgeWord (b : EdgeBits) : edgeHighField (edgeWord b) = 0 := by
  apply BitVec.eq_of_toNat_eq
  have := b.isLt
  rw [edgeHighField, extractLsb'_toNat_div, edgeWord_toNat]
  simp; omega

@[simp] theorem actField_edgeBits (act : Bool) (ch : BitVec 4) (dt : U16) :
    actField (edgeWord (edgeBits act ch dt)) = act := by
  have := ch.isLt; have := dt.isLt
  rw [actField, BitVec.getLsbD, Nat.testBit_eq_decide_div_mod_eq, edgeWord_toNat, edgeBits_toNat]
  cases act <;> simp <;> omega

@[simp] theorem chField_edgeBits (act : Bool) (ch : BitVec 4) (dt : U16) :
    chField (edgeWord (edgeBits act ch dt)) = ch := by
  apply BitVec.eq_of_toNat_eq
  have := ch.isLt; have := dt.isLt
  rw [chField, extractLsb'_toNat_div, edgeWord_toNat, edgeBits_toNat]; omega

@[simp] theorem dtField_edgeBits (act : Bool) (ch : BitVec 4) (dt : U16) :
    dtField (edgeWord (edgeBits act ch dt)) = dt := by
  apply BitVec.eq_of_toNat_eq
  have := ch.isLt; have := dt.isLt
  rw [dtField, extractLsb'_toNat_div, edgeWord_toNat, edgeBits_toNat]; omega

/-- What the edge decoder reads from a stored word whose channel is 0 to 11 (30_encoding.md R85). -/
theorem decodeEdge_edgeWord (b : EdgeBits) (h : (chField (edgeWord b)).toNat < 12) :
    decode .edgeTable (edgeWord b) =
      .ok (if actField (edgeWord b) then .eset (chField (edgeWord b)) (dtField (edgeWord b))
        else .eclr (chField (edgeWord b)) (dtField (edgeWord b))) := by
  have h' : ¬12 ≤ (chField (edgeWord b)).toNat := by omega
  simp only [decode, decodeEdge, edgeHighField_edgeWord, ne_eq, not_true_eq_false, if_false, h']
  split <;> rfl

/-- A stored word with a channel 12 to 15 is no edge word (30_encoding.md R89). -/
theorem decodeEdge_edgeWord_bad (b : EdgeBits) (h : 12 ≤ (chField (edgeWord b)).toNat) :
    decode .edgeTable (edgeWord b) = .error .edgeChannelAbove11 := by
  simp [decode, decodeEdge, h]

end Sys2Proof
end

