-- ==== Sys2Proof/Laws/State.lean ====
section
/-! SUPPORT. One lemma per field per named update of the state, each true by rfl. -/

namespace Sys2Proof.Machine

@[simp] theorem withEngine_eng (s : State) (e : Engine) : (s.withEngine e).eng = e := rfl
@[simp] theorem withEngine_cfg (s : State) (e : Engine) : (s.withEngine e).cfg = s.cfg := rfl
@[simp] theorem withEngine_resp (s : State) (e : Engine) : (s.withEngine e).resp = s.resp := rfl
@[simp] theorem withEngine_script (s : State) (e : Engine) : (s.withEngine e).script = s.script := rfl
@[simp] theorem withEngine_turnNo (s : State) (e : Engine) : (s.withEngine e).turnNo = s.turnNo := rfl
@[simp] theorem respond_eng (s : State) (v : Word) : (s.respond v).eng = s.eng := rfl
@[simp] theorem respond_cfg (s : State) (v : Word) : (s.respond v).cfg = s.cfg := rfl
@[simp] theorem respond_resp (s : State) (v : Word) : (s.respond v).resp = some v := rfl
@[simp] theorem respond_script (s : State) (v : Word) : (s.respond v).script = s.script := rfl
@[simp] theorem respond_turnNo (s : State) (v : Word) : (s.respond v).turnNo = s.turnNo := rfl

/-! The fields after `clearInterrupt`. -/

@[simp] theorem clearInterrupt_tgt (e : Engine) : (clearInterrupt e).tgt = e.tgt := rfl
@[simp] theorem clearInterrupt_cur (e : Engine) : (clearInterrupt e).cur = e.cur := rfl
@[simp] theorem clearInterrupt_dpf (e : Engine) : (clearInterrupt e).dpf = e.dpf := rfl
@[simp] theorem clearInterrupt_pc (e : Engine) : (clearInterrupt e).pc = e.pc := rfl
@[simp] theorem clearInterrupt_pw (e : Engine) : (clearInterrupt e).pw = e.pw := rfl
@[simp] theorem clearInterrupt_ps (e : Engine) : (clearInterrupt e).ps = e.ps := rfl
@[simp] theorem clearInterrupt_moveT (e : Engine) : (clearInterrupt e).moveT = e.moveT := rfl
@[simp] theorem clearInterrupt_ready (e : Engine) : (clearInterrupt e).ready = e.ready := rfl
@[simp] theorem clearInterrupt_remain (e : Engine) : (clearInterrupt e).remain = e.remain := rfl
@[simp] theorem clearInterrupt_frameCnt (e : Engine) : (clearInterrupt e).frameCnt = e.frameCnt := rfl
@[simp] theorem clearInterrupt_edge (e : Engine) : (clearInterrupt e).edge = e.edge := rfl
@[simp] theorem clearInterrupt_cursor (e : Engine) : (clearInterrupt e).cursor = e.cursor := rfl
@[simp] theorem clearInterrupt_tcnt (e : Engine) : (clearInterrupt e).tcnt = e.tcnt := rfl
@[simp] theorem clearInterrupt_tcmp (e : Engine) : (clearInterrupt e).tcmp = e.tcmp := rfl
@[simp] theorem clearInterrupt_ifl (e : Engine) : (clearInterrupt e).ifl = false := rfl
@[simp] theorem clearInterrupt_ie (e : Engine) : (clearInterrupt e).ie = e.ie := rfl
@[simp] theorem clearInterrupt_en (e : Engine) : (clearInterrupt e).en = e.en := rfl
@[simp] theorem clearInterrupt_underrun (e : Engine) : (clearInterrupt e).underrun = e.underrun := rfl
@[simp] theorem clearInterrupt_pout (e : Engine) : (clearInterrupt e).pout = e.pout := rfl
@[simp] theorem clearInterrupt_poe (e : Engine) : (clearInterrupt e).poe = e.poe := rfl

/-! The fields after `raiseUnderrun`. -/

@[simp] theorem raiseUnderrun_tgt (e : Engine) : (raiseUnderrun e).tgt = e.tgt := rfl
@[simp] theorem raiseUnderrun_cur (e : Engine) : (raiseUnderrun e).cur = e.cur := rfl
@[simp] theorem raiseUnderrun_dpf (e : Engine) : (raiseUnderrun e).dpf = e.dpf := rfl
@[simp] theorem raiseUnderrun_pc (e : Engine) : (raiseUnderrun e).pc = e.pc := rfl
@[simp] theorem raiseUnderrun_pw (e : Engine) : (raiseUnderrun e).pw = e.pw := rfl
@[simp] theorem raiseUnderrun_ps (e : Engine) : (raiseUnderrun e).ps = e.ps := rfl
@[simp] theorem raiseUnderrun_moveT (e : Engine) : (raiseUnderrun e).moveT = e.moveT := rfl
@[simp] theorem raiseUnderrun_ready (e : Engine) : (raiseUnderrun e).ready = e.ready := rfl
@[simp] theorem raiseUnderrun_remain (e : Engine) : (raiseUnderrun e).remain = e.remain := rfl
@[simp] theorem raiseUnderrun_frameCnt (e : Engine) : (raiseUnderrun e).frameCnt = e.frameCnt := rfl
@[simp] theorem raiseUnderrun_edge (e : Engine) : (raiseUnderrun e).edge = e.edge := rfl
@[simp] theorem raiseUnderrun_cursor (e : Engine) : (raiseUnderrun e).cursor = e.cursor := rfl
@[simp] theorem raiseUnderrun_tcnt (e : Engine) : (raiseUnderrun e).tcnt = e.tcnt := rfl
@[simp] theorem raiseUnderrun_tcmp (e : Engine) : (raiseUnderrun e).tcmp = e.tcmp := rfl
@[simp] theorem raiseUnderrun_ifl (e : Engine) : (raiseUnderrun e).ifl = e.ifl := rfl
@[simp] theorem raiseUnderrun_ie (e : Engine) : (raiseUnderrun e).ie = e.ie := rfl
@[simp] theorem raiseUnderrun_en (e : Engine) : (raiseUnderrun e).en = e.en := rfl
@[simp] theorem raiseUnderrun_underrun (e : Engine) : (raiseUnderrun e).underrun = true := rfl
@[simp] theorem raiseUnderrun_pout (e : Engine) : (raiseUnderrun e).pout = e.pout := rfl
@[simp] theorem raiseUnderrun_poe (e : Engine) : (raiseUnderrun e).poe = e.poe := rfl

/-! The fields after `countTick`. -/

@[simp] theorem countTick_tgt (e : Engine) : (countTick e).tgt = e.tgt := rfl
@[simp] theorem countTick_cur (e : Engine) : (countTick e).cur = e.cur := rfl
@[simp] theorem countTick_dpf (e : Engine) : (countTick e).dpf = e.dpf := rfl
@[simp] theorem countTick_pc (e : Engine) : (countTick e).pc = e.pc := rfl
@[simp] theorem countTick_pw (e : Engine) : (countTick e).pw = e.pw := rfl
@[simp] theorem countTick_ps (e : Engine) : (countTick e).ps = e.ps := rfl
@[simp] theorem countTick_moveT (e : Engine) : (countTick e).moveT = e.moveT := rfl
@[simp] theorem countTick_ready (e : Engine) : (countTick e).ready = e.ready := rfl
@[simp] theorem countTick_remain (e : Engine) : (countTick e).remain = e.remain := rfl
@[simp] theorem countTick_frameCnt (e : Engine) : (countTick e).frameCnt = e.frameCnt := rfl
@[simp] theorem countTick_edge (e : Engine) : (countTick e).edge = e.edge := rfl
@[simp] theorem countTick_cursor (e : Engine) : (countTick e).cursor = e.cursor := rfl
@[simp] theorem countTick_tcnt (e : Engine) : (countTick e).tcnt = e.tcnt + 1 := rfl
@[simp] theorem countTick_tcmp (e : Engine) : (countTick e).tcmp = e.tcmp := rfl
@[simp] theorem countTick_ifl (e : Engine) : (countTick e).ifl = (e.ifl || e.tcnt + 1 == e.tcmp) := rfl
@[simp] theorem countTick_ie (e : Engine) : (countTick e).ie = e.ie := rfl
@[simp] theorem countTick_en (e : Engine) : (countTick e).en = e.en := rfl
@[simp] theorem countTick_underrun (e : Engine) : (countTick e).underrun = e.underrun := rfl
@[simp] theorem countTick_pout (e : Engine) : (countTick e).pout = e.pout := rfl
@[simp] theorem countTick_poe (e : Engine) : (countTick e).poe = e.poe := rfl

/-! The fields after `writePin`. -/

@[simp] theorem writePin_tgt (c : Chan) (b : Bool) (e : Engine) : (writePin c b e).tgt = e.tgt := rfl
@[simp] theorem writePin_cur (c : Chan) (b : Bool) (e : Engine) : (writePin c b e).cur = e.cur := rfl
@[simp] theorem writePin_dpf (c : Chan) (b : Bool) (e : Engine) : (writePin c b e).dpf = e.dpf := rfl
@[simp] theorem writePin_pc (c : Chan) (b : Bool) (e : Engine) : (writePin c b e).pc = e.pc := rfl
@[simp] theorem writePin_pw (c : Chan) (b : Bool) (e : Engine) : (writePin c b e).pw = e.pw := rfl
@[simp] theorem writePin_ps (c : Chan) (b : Bool) (e : Engine) : (writePin c b e).ps = e.ps := rfl
@[simp] theorem writePin_moveT (c : Chan) (b : Bool) (e : Engine) : (writePin c b e).moveT = e.moveT := rfl
@[simp] theorem writePin_ready (c : Chan) (b : Bool) (e : Engine) : (writePin c b e).ready = e.ready := rfl
@[simp] theorem writePin_remain (c : Chan) (b : Bool) (e : Engine) : (writePin c b e).remain = e.remain := rfl
@[simp] theorem writePin_frameCnt (c : Chan) (b : Bool) (e : Engine) : (writePin c b e).frameCnt = e.frameCnt := rfl
@[simp] theorem writePin_edge (c : Chan) (b : Bool) (e : Engine) : (writePin c b e).edge = e.edge := rfl
@[simp] theorem writePin_cursor (c : Chan) (b : Bool) (e : Engine) : (writePin c b e).cursor = e.cursor := rfl
@[simp] theorem writePin_tcnt (c : Chan) (b : Bool) (e : Engine) : (writePin c b e).tcnt = e.tcnt := rfl
@[simp] theorem writePin_tcmp (c : Chan) (b : Bool) (e : Engine) : (writePin c b e).tcmp = e.tcmp := rfl
@[simp] theorem writePin_ifl (c : Chan) (b : Bool) (e : Engine) : (writePin c b e).ifl = e.ifl := rfl
@[simp] theorem writePin_ie (c : Chan) (b : Bool) (e : Engine) : (writePin c b e).ie = e.ie := rfl
@[simp] theorem writePin_en (c : Chan) (b : Bool) (e : Engine) : (writePin c b e).en = e.en := rfl
@[simp] theorem writePin_underrun (c : Chan) (b : Bool) (e : Engine) : (writePin c b e).underrun = e.underrun := rfl
@[simp] theorem writePin_pout (c : Chan) (b : Bool) (e : Engine) : (writePin c b e).pout = e.pout.set c b := rfl
@[simp] theorem writePin_poe (c : Chan) (b : Bool) (e : Engine) : (writePin c b e).poe = e.poe := rfl

/-! The fields after `advance`. -/

@[simp] theorem advance_tgt (dt : U16) (e : Engine) : (advance dt e).tgt = e.tgt := rfl
@[simp] theorem advance_cur (dt : U16) (e : Engine) : (advance dt e).cur = e.cur := rfl
@[simp] theorem advance_dpf (dt : U16) (e : Engine) : (advance dt e).dpf = e.dpf := rfl
@[simp] theorem advance_pc (dt : U16) (e : Engine) : (advance dt e).pc = e.pc := rfl
@[simp] theorem advance_pw (dt : U16) (e : Engine) : (advance dt e).pw = e.pw := rfl
@[simp] theorem advance_ps (dt : U16) (e : Engine) : (advance dt e).ps = e.ps := rfl
@[simp] theorem advance_moveT (dt : U16) (e : Engine) : (advance dt e).moveT = e.moveT := rfl
@[simp] theorem advance_ready (dt : U16) (e : Engine) : (advance dt e).ready = e.ready := rfl
@[simp] theorem advance_remain (dt : U16) (e : Engine) : (advance dt e).remain = e.remain := rfl
@[simp] theorem advance_frameCnt (dt : U16) (e : Engine) : (advance dt e).frameCnt = e.frameCnt := rfl
@[simp] theorem advance_edge (dt : U16) (e : Engine) : (advance dt e).edge = e.edge := rfl
@[simp] theorem advance_cursor (dt : U16) (e : Engine) : (advance dt e).cursor = nextCursor e.cursor := rfl
@[simp] theorem advance_tcnt (dt : U16) (e : Engine) : (advance dt e).tcnt = e.tcnt := rfl
@[simp] theorem advance_tcmp (dt : U16) (e : Engine) : (advance dt e).tcmp = e.tcmp + dt := rfl
@[simp] theorem advance_ifl (dt : U16) (e : Engine) : (advance dt e).ifl = e.ifl := rfl
@[simp] theorem advance_ie (dt : U16) (e : Engine) : (advance dt e).ie = e.ie := rfl
@[simp] theorem advance_en (dt : U16) (e : Engine) : (advance dt e).en = e.en := rfl
@[simp] theorem advance_underrun (dt : U16) (e : Engine) : (advance dt e).underrun = e.underrun := rfl
@[simp] theorem advance_pout (dt : U16) (e : Engine) : (advance dt e).pout = e.pout := rfl
@[simp] theorem advance_poe (dt : U16) (e : Engine) : (advance dt e).poe = e.poe := rfl

/-! The fields after `commandChannel`. -/

@[simp] theorem commandChannel_tgt (c : Chan) (w : U16) (e : Engine) : (commandChannel c w e).tgt = e.tgt := rfl
@[simp] theorem commandChannel_cur (c : Chan) (w : U16) (e : Engine) : (commandChannel c w e).cur = e.cur := rfl
@[simp] theorem commandChannel_dpf (c : Chan) (w : U16) (e : Engine) : (commandChannel c w e).dpf = e.dpf := rfl
@[simp] theorem commandChannel_pc (c : Chan) (w : U16) (e : Engine) :
    (commandChannel c w e).pc = e.pc.set c true := rfl
@[simp] theorem commandChannel_pw (c : Chan) (w : U16) (e : Engine) : (commandChannel c w e).pw = e.pw.set c w := rfl
@[simp] theorem commandChannel_ps (c : Chan) (w : U16) (e : Engine) : (commandChannel c w e).ps = e.ps := rfl
@[simp] theorem commandChannel_moveT (c : Chan) (w : U16) (e : Engine) :
    (commandChannel c w e).moveT = e.moveT := rfl
@[simp] theorem commandChannel_ready (c : Chan) (w : U16) (e : Engine) :
    (commandChannel c w e).ready = e.ready := rfl
@[simp] theorem commandChannel_remain (c : Chan) (w : U16) (e : Engine) :
    (commandChannel c w e).remain = e.remain := rfl
@[simp] theorem commandChannel_frameCnt (c : Chan) (w : U16) (e : Engine) :
    (commandChannel c w e).frameCnt = e.frameCnt := rfl
@[simp] theorem commandChannel_edge (c : Chan) (w : U16) (e : Engine) : (commandChannel c w e).edge = e.edge := rfl
@[simp] theorem commandChannel_cursor (c : Chan) (w : U16) (e : Engine) :
    (commandChannel c w e).cursor = e.cursor := rfl
@[simp] theorem commandChannel_tcnt (c : Chan) (w : U16) (e : Engine) : (commandChannel c w e).tcnt = e.tcnt := rfl
@[simp] theorem commandChannel_tcmp (c : Chan) (w : U16) (e : Engine) : (commandChannel c w e).tcmp = e.tcmp := rfl
@[simp] theorem commandChannel_ifl (c : Chan) (w : U16) (e : Engine) : (commandChannel c w e).ifl = e.ifl := rfl
@[simp] theorem commandChannel_ie (c : Chan) (w : U16) (e : Engine) : (commandChannel c w e).ie = e.ie := rfl
@[simp] theorem commandChannel_en (c : Chan) (w : U16) (e : Engine) : (commandChannel c w e).en = e.en := rfl
@[simp] theorem commandChannel_underrun (c : Chan) (w : U16) (e : Engine) :
    (commandChannel c w e).underrun = e.underrun := rfl
@[simp] theorem commandChannel_pout (c : Chan) (w : U16) (e : Engine) : (commandChannel c w e).pout = e.pout := rfl
@[simp] theorem commandChannel_poe (c : Chan) (w : U16) (e : Engine) : (commandChannel c w e).poe = e.poe := rfl

/-! The fields after `setPendingSpeed`. -/

@[simp] theorem setPendingSpeed_tgt (c : Chan) (v : U16) (e : Engine) : (setPendingSpeed c v e).tgt = e.tgt := rfl
@[simp] theorem setPendingSpeed_cur (c : Chan) (v : U16) (e : Engine) : (setPendingSpeed c v e).cur = e.cur := rfl
@[simp] theorem setPendingSpeed_dpf (c : Chan) (v : U16) (e : Engine) : (setPendingSpeed c v e).dpf = e.dpf := rfl
@[simp] theorem setPendingSpeed_pc (c : Chan) (v : U16) (e : Engine) : (setPendingSpeed c v e).pc = e.pc := rfl
@[simp] theorem setPendingSpeed_pw (c : Chan) (v : U16) (e : Engine) : (setPendingSpeed c v e).pw = e.pw := rfl
@[simp] theorem setPendingSpeed_ps (c : Chan) (v : U16) (e : Engine) :
    (setPendingSpeed c v e).ps = e.ps.set c v := rfl
@[simp] theorem setPendingSpeed_moveT (c : Chan) (v : U16) (e : Engine) :
    (setPendingSpeed c v e).moveT = e.moveT := rfl
@[simp] theorem setPendingSpeed_ready (c : Chan) (v : U16) (e : Engine) :
    (setPendingSpeed c v e).ready = e.ready := rfl
@[simp] theorem setPendingSpeed_remain (c : Chan) (v : U16) (e : Engine) :
    (setPendingSpeed c v e).remain = e.remain := rfl
@[simp] theorem setPendingSpeed_frameCnt (c : Chan) (v : U16) (e : Engine) :
    (setPendingSpeed c v e).frameCnt = e.frameCnt := rfl
@[simp] theorem setPendingSpeed_edge (c : Chan) (v : U16) (e : Engine) : (setPendingSpeed c v e).edge = e.edge := rfl
@[simp] theorem setPendingSpeed_cursor (c : Chan) (v : U16) (e : Engine) :
    (setPendingSpeed c v e).cursor = e.cursor := rfl
@[simp] theorem setPendingSpeed_tcnt (c : Chan) (v : U16) (e : Engine) : (setPendingSpeed c v e).tcnt = e.tcnt := rfl
@[simp] theorem setPendingSpeed_tcmp (c : Chan) (v : U16) (e : Engine) : (setPendingSpeed c v e).tcmp = e.tcmp := rfl
@[simp] theorem setPendingSpeed_ifl (c : Chan) (v : U16) (e : Engine) : (setPendingSpeed c v e).ifl = e.ifl := rfl
@[simp] theorem setPendingSpeed_ie (c : Chan) (v : U16) (e : Engine) : (setPendingSpeed c v e).ie = e.ie := rfl
@[simp] theorem setPendingSpeed_en (c : Chan) (v : U16) (e : Engine) : (setPendingSpeed c v e).en = e.en := rfl
@[simp] theorem setPendingSpeed_underrun (c : Chan) (v : U16) (e : Engine) :
    (setPendingSpeed c v e).underrun = e.underrun := rfl
@[simp] theorem setPendingSpeed_pout (c : Chan) (v : U16) (e : Engine) : (setPendingSpeed c v e).pout = e.pout := rfl
@[simp] theorem setPendingSpeed_poe (c : Chan) (v : U16) (e : Engine) : (setPendingSpeed c v e).poe = e.poe := rfl

/-! The fields after `freezeChannel`. -/

@[simp] theorem freezeChannel_tgt (c : Chan) (e : Engine) :
    (freezeChannel c e).tgt = e.tgt.set c (BitVec.ofNat 16 (us e.cur[c])) := rfl
@[simp] theorem freezeChannel_cur (c : Chan) (e : Engine) :
    (freezeChannel c e).cur = e.cur.set c (q16Word (BitVec.ofNat 16 (us e.cur[c]))) := rfl
@[simp] theorem freezeChannel_dpf (c : Chan) (e : Engine) : (freezeChannel c e).dpf = e.dpf.set c 0 := rfl
@[simp] theorem freezeChannel_pc (c : Chan) (e : Engine) : (freezeChannel c e).pc = e.pc := rfl
@[simp] theorem freezeChannel_pw (c : Chan) (e : Engine) : (freezeChannel c e).pw = e.pw := rfl
@[simp] theorem freezeChannel_ps (c : Chan) (e : Engine) : (freezeChannel c e).ps = e.ps := rfl
@[simp] theorem freezeChannel_moveT (c : Chan) (e : Engine) : (freezeChannel c e).moveT = e.moveT := rfl
@[simp] theorem freezeChannel_ready (c : Chan) (e : Engine) : (freezeChannel c e).ready = e.ready := rfl
@[simp] theorem freezeChannel_remain (c : Chan) (e : Engine) : (freezeChannel c e).remain = e.remain := rfl
@[simp] theorem freezeChannel_frameCnt (c : Chan) (e : Engine) : (freezeChannel c e).frameCnt = e.frameCnt := rfl
@[simp] theorem freezeChannel_edge (c : Chan) (e : Engine) : (freezeChannel c e).edge = e.edge := rfl
@[simp] theorem freezeChannel_cursor (c : Chan) (e : Engine) : (freezeChannel c e).cursor = e.cursor := rfl
@[simp] theorem freezeChannel_tcnt (c : Chan) (e : Engine) : (freezeChannel c e).tcnt = e.tcnt := rfl
@[simp] theorem freezeChannel_tcmp (c : Chan) (e : Engine) : (freezeChannel c e).tcmp = e.tcmp := rfl
@[simp] theorem freezeChannel_ifl (c : Chan) (e : Engine) : (freezeChannel c e).ifl = e.ifl := rfl
@[simp] theorem freezeChannel_ie (c : Chan) (e : Engine) : (freezeChannel c e).ie = e.ie := rfl
@[simp] theorem freezeChannel_en (c : Chan) (e : Engine) : (freezeChannel c e).en = e.en := rfl
@[simp] theorem freezeChannel_underrun (c : Chan) (e : Engine) : (freezeChannel c e).underrun = e.underrun := rfl
@[simp] theorem freezeChannel_pout (c : Chan) (e : Engine) : (freezeChannel c e).pout = e.pout := rfl
@[simp] theorem freezeChannel_poe (c : Chan) (e : Engine) : (freezeChannel c e).poe = e.poe := rfl

/-! The fields after `jumpChannel`. -/

@[simp] theorem jumpChannel_tgt (c : Chan) (e : Engine) : (jumpChannel c e).tgt = e.tgt := rfl
@[simp] theorem jumpChannel_cur (c : Chan) (e : Engine) :
    (jumpChannel c e).cur = e.cur.set c (q16Word e.tgt[c]) := rfl
@[simp] theorem jumpChannel_dpf (c : Chan) (e : Engine) : (jumpChannel c e).dpf = e.dpf.set c 0 := rfl
@[simp] theorem jumpChannel_pc (c : Chan) (e : Engine) : (jumpChannel c e).pc = e.pc := rfl
@[simp] theorem jumpChannel_pw (c : Chan) (e : Engine) : (jumpChannel c e).pw = e.pw := rfl
@[simp] theorem jumpChannel_ps (c : Chan) (e : Engine) : (jumpChannel c e).ps = e.ps := rfl
@[simp] theorem jumpChannel_moveT (c : Chan) (e : Engine) : (jumpChannel c e).moveT = e.moveT := rfl
@[simp] theorem jumpChannel_ready (c : Chan) (e : Engine) : (jumpChannel c e).ready = e.ready := rfl
@[simp] theorem jumpChannel_remain (c : Chan) (e : Engine) : (jumpChannel c e).remain = e.remain := rfl
@[simp] theorem jumpChannel_frameCnt (c : Chan) (e : Engine) : (jumpChannel c e).frameCnt = e.frameCnt := rfl
@[simp] theorem jumpChannel_edge (c : Chan) (e : Engine) : (jumpChannel c e).edge = e.edge := rfl
@[simp] theorem jumpChannel_cursor (c : Chan) (e : Engine) : (jumpChannel c e).cursor = e.cursor := rfl
@[simp] theorem jumpChannel_tcnt (c : Chan) (e : Engine) : (jumpChannel c e).tcnt = e.tcnt := rfl
@[simp] theorem jumpChannel_tcmp (c : Chan) (e : Engine) : (jumpChannel c e).tcmp = e.tcmp := rfl
@[simp] theorem jumpChannel_ifl (c : Chan) (e : Engine) : (jumpChannel c e).ifl = e.ifl := rfl
@[simp] theorem jumpChannel_ie (c : Chan) (e : Engine) : (jumpChannel c e).ie = e.ie := rfl
@[simp] theorem jumpChannel_en (c : Chan) (e : Engine) : (jumpChannel c e).en = e.en := rfl
@[simp] theorem jumpChannel_underrun (c : Chan) (e : Engine) : (jumpChannel c e).underrun = e.underrun := rfl
@[simp] theorem jumpChannel_pout (c : Chan) (e : Engine) : (jumpChannel c e).pout = e.pout := rfl
@[simp] theorem jumpChannel_poe (c : Chan) (e : Engine) : (jumpChannel c e).poe = e.poe := rfl

/-! The fields after `startEngine`. -/

@[simp] theorem startEngine_tgt (lead : Nat) (e : Engine) : (startEngine lead e).tgt = e.tgt := rfl
@[simp] theorem startEngine_cur (lead : Nat) (e : Engine) : (startEngine lead e).cur = e.cur := rfl
@[simp] theorem startEngine_dpf (lead : Nat) (e : Engine) : (startEngine lead e).dpf = e.dpf := rfl
@[simp] theorem startEngine_pc (lead : Nat) (e : Engine) : (startEngine lead e).pc = e.pc := rfl
@[simp] theorem startEngine_pw (lead : Nat) (e : Engine) : (startEngine lead e).pw = e.pw := rfl
@[simp] theorem startEngine_ps (lead : Nat) (e : Engine) : (startEngine lead e).ps = e.ps := rfl
@[simp] theorem startEngine_moveT (lead : Nat) (e : Engine) : (startEngine lead e).moveT = e.moveT := rfl
@[simp] theorem startEngine_ready (lead : Nat) (e : Engine) : (startEngine lead e).ready = e.ready := rfl
@[simp] theorem startEngine_remain (lead : Nat) (e : Engine) : (startEngine lead e).remain = e.remain := rfl
@[simp] theorem startEngine_frameCnt (lead : Nat) (e : Engine) : (startEngine lead e).frameCnt = e.frameCnt := rfl
@[simp] theorem startEngine_edge (lead : Nat) (e : Engine) : (startEngine lead e).edge = e.edge := rfl
@[simp] theorem startEngine_cursor (lead : Nat) (e : Engine) : (startEngine lead e).cursor = e.cursor := rfl
@[simp] theorem startEngine_tcnt (lead : Nat) (e : Engine) : (startEngine lead e).tcnt = e.tcnt := rfl
@[simp] theorem startEngine_tcmp (lead : Nat) (e : Engine) :
    (startEngine lead e).tcmp = e.tcnt + BitVec.ofNat 16 lead := rfl
@[simp] theorem startEngine_ifl (lead : Nat) (e : Engine) : (startEngine lead e).ifl = e.ifl := rfl
@[simp] theorem startEngine_ie (lead : Nat) (e : Engine) : (startEngine lead e).ie = true := rfl
@[simp] theorem startEngine_en (lead : Nat) (e : Engine) : (startEngine lead e).en = true := rfl
@[simp] theorem startEngine_underrun (lead : Nat) (e : Engine) : (startEngine lead e).underrun = e.underrun := rfl
@[simp] theorem startEngine_pout (lead : Nat) (e : Engine) : (startEngine lead e).pout = e.pout := rfl
@[simp] theorem startEngine_poe (lead : Nat) (e : Engine) :
    (startEngine lead e).poe = Vector.replicate 12 true := rfl

/-! The fields after `reload`. -/

@[simp] theorem reload_tgt (e : Engine) : (reload e).tgt = e.tgt := rfl
@[simp] theorem reload_cur (e : Engine) : (reload e).cur = e.cur := rfl
@[simp] theorem reload_dpf (e : Engine) : (reload e).dpf = e.dpf := rfl
@[simp] theorem reload_pc (e : Engine) : (reload e).pc = e.pc := rfl
@[simp] theorem reload_pw (e : Engine) : (reload e).pw = e.pw := rfl
@[simp] theorem reload_ps (e : Engine) : (reload e).ps = e.ps := rfl
@[simp] theorem reload_moveT (e : Engine) : (reload e).moveT = e.moveT := rfl
@[simp] theorem reload_ready (e : Engine) : (reload e).ready = e.ready := rfl
@[simp] theorem reload_remain (e : Engine) : (reload e).remain = e.remain := rfl
@[simp] theorem reload_frameCnt (e : Engine) : (reload e).frameCnt = e.frameCnt := rfl
@[simp] theorem reload_edge (e : Engine) : (reload e).edge = e.edge := rfl
@[simp] theorem reload_cursor (e : Engine) : (reload e).cursor = 0 := rfl
@[simp] theorem reload_tcnt (e : Engine) : (reload e).tcnt = e.tcnt := rfl
@[simp] theorem reload_tcmp (e : Engine) : (reload e).tcmp = e.tcmp := rfl
@[simp] theorem reload_ifl (e : Engine) : (reload e).ifl = e.ifl := rfl
@[simp] theorem reload_ie (e : Engine) : (reload e).ie = e.ie := rfl
@[simp] theorem reload_en (e : Engine) : (reload e).en = e.en := rfl
@[simp] theorem reload_underrun (e : Engine) : (reload e).underrun = e.underrun := rfl
@[simp] theorem reload_pout (e : Engine) : (reload e).pout = e.pout := rfl
@[simp] theorem reload_poe (e : Engine) : (reload e).poe = e.poe := rfl

/-! The fields after `accum`. -/

@[simp] theorem accum_tgt (e : Engine) : (accum e).tgt = e.tgt := by unfold accum; rfl
@[simp] theorem accum_cur (e : Engine) :
    (accum e).cur = Vector.ofFn fun c => accumWidth e.tgt[c] e.cur[c] e.dpf[c] := by unfold accum; rfl
@[simp] theorem accum_dpf (e : Engine) : (accum e).dpf = e.dpf := by unfold accum; rfl
@[simp] theorem accum_pc (e : Engine) : (accum e).pc = e.pc := by unfold accum; rfl
@[simp] theorem accum_pw (e : Engine) : (accum e).pw = e.pw := by unfold accum; rfl
@[simp] theorem accum_ps (e : Engine) : (accum e).ps = e.ps := by unfold accum; rfl
@[simp] theorem accum_moveT (e : Engine) : (accum e).moveT = e.moveT := by unfold accum; rfl
@[simp] theorem accum_ready (e : Engine) : (accum e).ready = e.ready := by unfold accum; rfl
@[simp] theorem accum_remain (e : Engine) :
    (accum e).remain = BitVec.ofNat 16 (e.remain.toNat - Config.framePeriodMs) := by unfold accum; rfl
@[simp] theorem accum_frameCnt (e : Engine) : (accum e).frameCnt = e.frameCnt + 1 := by unfold accum; rfl
@[simp] theorem accum_edge (e : Engine) : (accum e).edge = e.edge := by unfold accum; rfl
@[simp] theorem accum_cursor (e : Engine) : (accum e).cursor = e.cursor := by unfold accum; rfl
@[simp] theorem accum_tcnt (e : Engine) : (accum e).tcnt = e.tcnt := by unfold accum; rfl
@[simp] theorem accum_tcmp (e : Engine) : (accum e).tcmp = e.tcmp := by unfold accum; rfl
@[simp] theorem accum_ifl (e : Engine) : (accum e).ifl = e.ifl := by unfold accum; rfl
@[simp] theorem accum_ie (e : Engine) : (accum e).ie = e.ie := by unfold accum; rfl
@[simp] theorem accum_en (e : Engine) : (accum e).en = e.en := by unfold accum; rfl
@[simp] theorem accum_underrun (e : Engine) : (accum e).underrun = e.underrun := by unfold accum; rfl
@[simp] theorem accum_pout (e : Engine) : (accum e).pout = e.pout := by unfold accum; rfl
@[simp] theorem accum_poe (e : Engine) : (accum e).poe = e.poe := by unfold accum; rfl

/-! The fields after `sched`. -/

@[simp] theorem sched_tgt (p : Config.Params) (e : Engine) : (sched p e).tgt = e.tgt := by unfold sched; rfl
@[simp] theorem sched_cur (p : Config.Params) (e : Engine) : (sched p e).cur = e.cur := by unfold sched; rfl
@[simp] theorem sched_dpf (p : Config.Params) (e : Engine) : (sched p e).dpf = e.dpf := by unfold sched; rfl
@[simp] theorem sched_pc (p : Config.Params) (e : Engine) : (sched p e).pc = e.pc := by unfold sched; rfl
@[simp] theorem sched_pw (p : Config.Params) (e : Engine) : (sched p e).pw = e.pw := by unfold sched; rfl
@[simp] theorem sched_ps (p : Config.Params) (e : Engine) : (sched p e).ps = e.ps := by unfold sched; rfl
@[simp] theorem sched_moveT (p : Config.Params) (e : Engine) : (sched p e).moveT = e.moveT := by unfold sched; rfl
@[simp] theorem sched_ready (p : Config.Params) (e : Engine) : (sched p e).ready = e.ready := by unfold sched; rfl
@[simp] theorem sched_remain (p : Config.Params) (e : Engine) : (sched p e).remain = e.remain := by unfold sched; rfl
@[simp] theorem sched_frameCnt (p : Config.Params) (e : Engine) :
    (sched p e).frameCnt = e.frameCnt := by unfold sched; rfl
@[simp] theorem sched_edge (p : Config.Params) (e : Engine) :
    (sched p e).edge = Vector.ofFn (schedEntry p (key p e)) := by unfold sched; rfl
@[simp] theorem sched_cursor (p : Config.Params) (e : Engine) : (sched p e).cursor = e.cursor := by unfold sched; rfl
@[simp] theorem sched_tcnt (p : Config.Params) (e : Engine) : (sched p e).tcnt = e.tcnt := by unfold sched; rfl
@[simp] theorem sched_tcmp (p : Config.Params) (e : Engine) : (sched p e).tcmp = e.tcmp := by unfold sched; rfl
@[simp] theorem sched_ifl (p : Config.Params) (e : Engine) : (sched p e).ifl = e.ifl := by unfold sched; rfl
@[simp] theorem sched_ie (p : Config.Params) (e : Engine) : (sched p e).ie = e.ie := by unfold sched; rfl
@[simp] theorem sched_en (p : Config.Params) (e : Engine) : (sched p e).en = e.en := by unfold sched; rfl
@[simp] theorem sched_underrun (p : Config.Params) (e : Engine) :
    (sched p e).underrun = e.underrun := by unfold sched; rfl
@[simp] theorem sched_pout (p : Config.Params) (e : Engine) : (sched p e).pout = e.pout := by unfold sched; rfl
@[simp] theorem sched_poe (p : Config.Params) (e : Engine) : (sched p e).poe = e.poe := by unfold sched; rfl

/-! The fields after `commitPending`. -/

@[simp] theorem commitPending_pc (r : Config.DeltaRound) (d : Nat) (e : Engine) :
    (commitPending r d e).pc = Vector.replicate 12 false := by unfold commitPending; rfl
@[simp] theorem commitPending_pw (r : Config.DeltaRound) (d : Nat) (e : Engine) :
    (commitPending r d e).pw = e.pw := by unfold commitPending; rfl
@[simp] theorem commitPending_ps (r : Config.DeltaRound) (d : Nat) (e : Engine) :
    (commitPending r d e).ps = Vector.replicate 12 Config.speedMax := by unfold commitPending; rfl
@[simp] theorem commitPending_moveT (r : Config.DeltaRound) (d : Nat) (e : Engine) :
    (commitPending r d e).moveT = e.moveT := by unfold commitPending; rfl
@[simp] theorem commitPending_ready (r : Config.DeltaRound) (d : Nat) (e : Engine) :
    (commitPending r d e).ready = false := by unfold commitPending; rfl
@[simp] theorem commitPending_frameCnt (r : Config.DeltaRound) (d : Nat) (e : Engine) :
    (commitPending r d e).frameCnt = e.frameCnt := by unfold commitPending; rfl
@[simp] theorem commitPending_edge (r : Config.DeltaRound) (d : Nat) (e : Engine) :
    (commitPending r d e).edge = e.edge := by unfold commitPending; rfl
@[simp] theorem commitPending_cursor (r : Config.DeltaRound) (d : Nat) (e : Engine) :
    (commitPending r d e).cursor = e.cursor := by unfold commitPending; rfl
@[simp] theorem commitPending_tcnt (r : Config.DeltaRound) (d : Nat) (e : Engine) :
    (commitPending r d e).tcnt = e.tcnt := by unfold commitPending; rfl
@[simp] theorem commitPending_tcmp (r : Config.DeltaRound) (d : Nat) (e : Engine) :
    (commitPending r d e).tcmp = e.tcmp := by unfold commitPending; rfl
@[simp] theorem commitPending_ifl (r : Config.DeltaRound) (d : Nat) (e : Engine) :
    (commitPending r d e).ifl = e.ifl := by unfold commitPending; rfl
@[simp] theorem commitPending_ie (r : Config.DeltaRound) (d : Nat) (e : Engine) :
    (commitPending r d e).ie = e.ie := by unfold commitPending; rfl
@[simp] theorem commitPending_en (r : Config.DeltaRound) (d : Nat) (e : Engine) :
    (commitPending r d e).en = e.en := by unfold commitPending; rfl
@[simp] theorem commitPending_underrun (r : Config.DeltaRound) (d : Nat) (e : Engine) :
    (commitPending r d e).underrun = e.underrun := by unfold commitPending; rfl
@[simp] theorem commitPending_pout (r : Config.DeltaRound) (d : Nat) (e : Engine) :
    (commitPending r d e).pout = e.pout := by unfold commitPending; rfl
@[simp] theorem commitPending_poe (r : Config.DeltaRound) (d : Nat) (e : Engine) :
    (commitPending r d e).poe = e.poe := by unfold commitPending; rfl

end Sys2Proof.Machine
end

