-- ==== Sys2Proof/Laws/Ops.lean ====
section
/-! SUPPORT. What each shared operation can do, said once: one lemma per operation, to be cited instead of
unfolding it. -/

namespace Sys2Proof.Machine

/-! Operands. -/

/-- A channel field names a channel exactly when it is below 12. -/
theorem chan?_eq_some_iff (ch : BitVec 4) (c : Chan) : chan? ch = some c ↔ c.val = ch.toNat := by
  unfold chan?
  split <;> simp [Fin.ext_iff] <;> omega

theorem chan?_eq_none_iff (ch : BitVec 4) : chan? ch = none ↔ 12 ≤ ch.toNat := by
  unfold chan?
  split <;> simp <;> omega

theorem edgeIdx?_eq_some_iff (j : U16) (i : EdgeIdx) : edgeIdx? j = some i ↔ i.val = j.toNat := by
  unfold edgeIdx?
  split <;> simp [Fin.ext_iff] <;> omega

theorem edgeIdx?_eq_none_iff (j : U16) : edgeIdx? j = none ↔ 24 ≤ j.toNat := by
  unfold edgeIdx?
  split <;> simp <;> omega

theorem cursorIdx?_eq_some_iff (c : Cursor) (j : EdgeIdx) : cursorIdx? c = some j ↔ j.val = c.val := by
  unfold cursorIdx?
  split <;> simp [Fin.ext_iff] <;> omega

theorem cursorIdx?_eq_none_iff (c : Cursor) : cursorIdx? c = none ↔ c = 24 := by
  have := c.isLt
  unfold cursorIdx?
  split <;> simp [Fin.ext_iff] <;> omega

theorem nextCursor_val (c : Cursor) (h : c ≠ 24) : (nextCursor c).val = c.val + 1 := by
  have := c.isLt
  unfold nextCursor
  split
  · rfl
  · exact absurd (Fin.ext (by simp; omega)) h

/-! The shared operations. -/

/-- A host write runs f on the channel its field names, or is dropped. -/
theorem writeChannel_cases (ch : BitVec 4) (f : Chan → Engine → Engine) (s : State) :
    (∃ c : Chan, c.val = ch.toNat ∧ writeChannel ch f s = .next (s.withEngine (f c s.eng))) ∨
    (12 ≤ ch.toNat ∧ writeChannel ch f s = .next s) := by
  unfold writeChannel
  cases h : chan? ch with
  | none => exact .inr ⟨(chan?_eq_none_iff ch).mp h, rfl⟩
  | some c => exact .inl ⟨c, (chan?_eq_some_iff ch c).mp h, rfl⟩

/-- A host read answers for the channel its field names, or answers 0xFFFFFFFF. -/
theorem readChannel_cases (ch : BitVec 4) (f : Chan → Word) (s : State) :
    (∃ c : Chan, c.val = ch.toNat ∧ readChannel ch f s = .next (s.respond (f c))) ∨
    (12 ≤ ch.toNat ∧ readChannel ch f s = .next (s.respond invalidRead)) := by
  unfold readChannel
  cases h : chan? ch with
  | none => exact .inr ⟨(chan?_eq_none_iff ch).mp h, rfl⟩
  | some c => exact .inl ⟨c, (chan?_eq_some_iff ch c).mp h, rfl⟩

/-- A part of FRAME runs with CURSOR = 24 and is refused below. -/
theorem whenTableDone_cases (f : Engine → Engine) (s : State) :
    (s.eng.cursor = 24 ∧ whenTableDone f s = .next (s.withEngine (f s.eng))) ∨
    (s.eng.cursor ≠ 24 ∧ whenTableDone f s = .refused .tableInUse) := by
  unfold whenTableDone
  by_cases h : s.eng.cursor = 24 <;> simp [h]

/-- An edge word drives one pin and advances, or stops: on a channel 12 to 15, or with CURSOR = 24. -/
theorem runEdgeWord_cases (level : Bool) (ch : BitVec 4) (dt : U16) (s : State) :
    (∃ c : Chan, c.val = ch.toNat ∧ s.eng.cursor ≠ 24 ∧
      runEdgeWord level ch dt s = .next (s.withEngine (advance dt (writePin c level s.eng)))) ∨
    (ch.toNat < 12 ∧ s.eng.cursor = 24 ∧ runEdgeWord level ch dt s = .refused .noEdgeAtCursor) ∨
    (12 ≤ ch.toNat ∧ runEdgeWord level ch dt s = .fault .stuckEdgeWord) := by
  unfold runEdgeWord
  cases h : chan? ch with
  | none => exact .inr (.inr ⟨(chan?_eq_none_iff ch).mp h, rfl⟩)
  | some c =>
    have hc := (chan?_eq_some_iff ch c).mp h
    by_cases h24 : s.eng.cursor = 24
    · exact .inr (.inl ⟨by omega, h24, by simp [h24]⟩)
    · exact .inl ⟨c, hc, h24, by simp [h24]⟩

/-- DISPATCH on entry j: the pin of the entry's channel takes the entry's action, the cursor and the compare time
advance; a word with a channel 12 to 15 is stuck. -/
theorem runEdgeAt_cases (j : EdgeIdx) (s : State) :
    (∃ c : Chan, c.val = (chField (edgeWord s.eng.edge[j])).toNat ∧ s.eng.cursor ≠ 24 ∧
      runEdgeAt j s = .next (s.withEngine (advance (dtField (edgeWord s.eng.edge[j]))
        (writePin c (actField (edgeWord s.eng.edge[j])) s.eng)))) ∨
    ((chField (edgeWord s.eng.edge[j])).toNat < 12 ∧ s.eng.cursor = 24 ∧
      runEdgeAt j s = .refused .noEdgeAtCursor) ∨
    (12 ≤ (chField (edgeWord s.eng.edge[j])).toNat ∧ runEdgeAt j s = .fault .stuckEdgeWord) := by
  by_cases h : (chField (edgeWord s.eng.edge[j])).toNat < 12
  · have hr : runEdgeAt j s = runEdgeWord (actField (edgeWord s.eng.edge[j]))
        (chField (edgeWord s.eng.edge[j])) (dtField (edgeWord s.eng.edge[j])) s := by
      unfold runEdgeAt
      rw [decodeEdge_edgeWord _ h]
      cases actField (edgeWord s.eng.edge[j]) <;> rfl
    rw [hr]
    rcases runEdgeWord_cases (actField (edgeWord s.eng.edge[j])) (chField (edgeWord s.eng.edge[j]))
      (dtField (edgeWord s.eng.edge[j])) s with h' | h' | h'
    · exact .inl h'
    · exact .inr (.inl h')
    · exact absurd h'.1 (by omega)
  · refine .inr (.inr ⟨by omega, ?_⟩)
    unfold runEdgeAt
    rw [decodeEdge_edgeWord_bad _ (by omega)]

/-- The body of DISPATCH: one edge word with CURSOR below 24, an underrun with CURSOR = 24. -/
theorem dispatchBody_cases (s : State) :
    (∃ j : EdgeIdx, j.val = s.eng.cursor.val ∧
      dispatchBody s = runEdgeAt j (s.withEngine (clearInterrupt s.eng))) ∨
    (s.eng.cursor = 24 ∧ dispatchBody s = .next (s.withEngine (raiseUnderrun (clearInterrupt s.eng)))) := by
  unfold dispatchBody
  cases h : cursorIdx? s.eng.cursor with
  | none => exact .inr ⟨(cursorIdx?_eq_none_iff _).mp h, rfl⟩
  | some j => exact .inl ⟨j, (cursorIdx?_eq_some_iff _ j).mp h, rfl⟩

/-- The body of DISPATCH on a word that names a channel always answers a next state. -/
theorem dispatchBody_next (s : State) (j : EdgeIdx) (hj : j.val = s.eng.cursor.val)
    (hc : (chField (edgeWord s.eng.edge[j])).toNat < 12) :
    ∃ c : Chan, c.val = (chField (edgeWord s.eng.edge[j])).toNat ∧
      dispatchBody s = .next (s.withEngine (advance (dtField (edgeWord s.eng.edge[j]))
        (writePin c (actField (edgeWord s.eng.edge[j])) (clearInterrupt s.eng)))) := by
  have h24 : s.eng.cursor ≠ 24 := by
    intro h
    rw [h] at hj
    have := j.isLt
    exact absurd hj (by simp; omega)
  have hb : dispatchBody s = runEdgeAt j (s.withEngine (clearInterrupt s.eng)) := by
    unfold dispatchBody
    rw [(cursorIdx?_eq_some_iff _ j).mpr hj]
  rw [hb]
  rcases runEdgeAt_cases j (s.withEngine (clearInterrupt s.eng)) with ⟨c, h1, _, h3⟩ | ⟨_, h2, _⟩ | ⟨h1, _⟩
  · exact ⟨c, h1, h3⟩
  · exact absurd h2 h24
  · exact absurd hc (by simpa using h1)

/-- The third line of TICK, and DISPATCH: the body runs exactly when IF and IE are both set. -/
theorem dispatchIfPending_cases (s : State) :
    (s.eng.ifl = true ∧ s.eng.ie = true ∧ dispatchIfPending s = dispatchBody s ∧ execDispatch s = dispatchBody s) ∨
    ((s.eng.ifl = false ∨ s.eng.ie = false) ∧ dispatchIfPending s = .next s ∧
      execDispatch s = .refused .noInterrupt) := by
  unfold dispatchIfPending execDispatch
  cases s.eng.ifl <;> cases s.eng.ie <;> simp

/-- The two tests of SERVICE, each on the engine: what they leave of the cursor and of EN. -/
theorem commitIfReady_cursor (p : Config.Params) (e : Engine) : (commitIfReady p e).cursor = e.cursor := by
  unfold commitIfReady profile
  split <;> simp

theorem commitIfReady_en (p : Config.Params) (e : Engine) : (commitIfReady p e).en = e.en := by
  unfold commitIfReady profile
  split <;> simp

/-- ACCUM on one channel: the exact sum, clamped at the target (42_accumulate.md R131, R133, R135). -/
theorem accumWidth_toNat (tgt : U16) (cur dpf : U32) :
    ((accumWidth tgt cur dpf).toNat : Int) =
      if 0 < dpf.toInt ∧ (q16 tgt : Int) ≤ cur.toNat + dpf.toInt then (q16 tgt : Int)
      else if dpf.toInt < 0 ∧ cur.toNat + dpf.toInt ≤ (q16 tgt : Int) then (q16 tgt : Int)
      else cur.toNat + dpf.toInt := by
  have h1 := cur.isLt
  have h2 := q16_le tgt
  simp only [accumWidth]
  split_ifs
  · rw [q16Word_toNat]
  · rw [q16Word_toNat]
  · omega
  · rw [BitVec.toNat_ofInt]; omega

/-- All that PROFILE can do. -/
theorem execProfile_cases (s : State) :
    (s.eng.ready = true ∧ execProfile s = .next (s.withEngine (profile s.cfg.deltaRound s.eng))) ∨
    (s.eng.ready = false ∧ execProfile s = .next s) := by
  unfold execProfile
  cases h : s.eng.ready <;> simp

/-- All that SERVICE can do. -/
theorem execService_cases (s : State) :
    (s.eng.en = true ∧
      execService s = .next (s.withEngine (frameIfDone s.cfg (commitIfReady s.cfg s.eng)))) ∨
    (s.eng.en = false ∧ execService s = .refused .engineDisabled) := by
  unfold execService
  cases h : s.eng.en <;> simp

/-- All that TICK can do. -/
theorem execTick_cases (s : State) :
    (s.eng.en = true ∧ execTick s = dispatchIfPending (s.withEngine (countTick s.eng))) ∨
    (s.eng.en = false ∧ execTick s = .refused .engineDisabled) := by
  unfold execTick
  cases h : s.eng.en <;> simp

end Sys2Proof.Machine
end

