-- ==== Sys2Proof/Laws/PerInstr.lean ====
section
/-! SUPPORT. The family OpcodeTable, one lemma per constructor: an operation has an encoding exactly where its row of
spec/opcode_table.json has a mask, the encoding stands at the place of the row's format, and under the mask it is the
row's match. -/

namespace Sys2Proof.Laws.OpcodeTable

/-- The encoding of i agrees with its row of the table. -/
def Statement (i : Instr) : Prop :=
  match opcodeRow i, encode i with
  | some row, some (p, w) => p = row.place ∧ w &&& row.mask = row.pattern
  | none, none => True
  | _, _ => False

/-- The mask of format C keeps OP (30_encoding.md R82). -/
theorem and_opMask (w : Word) : w &&& 0xF0000000#32 = opField w ++ 0#28 := by
  apply BitVec.eq_of_getLsbD_eq
  intro i hi
  simp only [opField, BitVec.getLsbD_and, BitVec.getLsbD_append, BitVec.getLsbD_extractLsb']
  interval_cases i <;> simp

/-- The mask of format E keeps bits 31:20 (30_encoding.md R85). -/
theorem and_edgeMask (w : Word) : w &&& 0xFFF00000#32 = w.extractLsb' 20 12 ++ 0#20 := by
  apply BitVec.eq_of_getLsbD_eq
  intro i hi
  simp only [BitVec.getLsbD_and, BitVec.getLsbD_append, BitVec.getLsbD_extractLsb']
  interval_cases i <;> simp

theorem commandWord_masked (op chn : BitVec 4) (imm : U16) :
    commandWord op chn imm &&& 0xF0000000#32 = op ++ 0#28 := by
  rw [and_opMask, opField_commandWord]

theorem edgeBits_masked (act : Bool) (ch : BitVec 4) (dt : U16) :
    edgeWord (edgeBits act ch dt) &&& 0xFFF00000#32 = BitVec.ofNat 12 act.toNat ++ 0#20 := by
  have hw : (edgeWord (edgeBits act ch dt)).extractLsb' 20 12 = BitVec.ofNat 12 act.toNat := by
    apply BitVec.eq_of_toNat_eq
    have := act.toNat_le; have := ch.isLt; have := dt.isLt
    rw [extractLsb'_toNat_div, edgeWord_toNat, edgeBits_toNat, BitVec.toNat_ofNat]; omega
  rw [and_edgeMask, hw]

theorem setw (ch : BitVec 4) (width : U16) : Statement (.setw ch width) :=
  ⟨rfl, commandWord_masked _ _ _⟩

theorem sets (ch : BitVec 4) (speed : U16) : Statement (.sets ch speed) :=
  ⟨rfl, commandWord_masked _ _ _⟩

theorem sett (ms : U16) : Statement (.sett ms) :=
  ⟨rfl, commandWord_masked _ _ _⟩

theorem go : Statement .go :=
  ⟨rfl, commandWord_masked _ _ _⟩

theorem hold (ch : BitVec 4) : Statement (.hold ch) :=
  ⟨rfl, commandWord_masked _ _ _⟩

theorem start : Statement .start :=
  ⟨rfl, commandWord_masked _ _ _⟩

theorem rdcur (ch : BitVec 4) : Statement (.rdcur ch) :=
  ⟨rfl, commandWord_masked _ _ _⟩

theorem rdtgt (ch : BitVec 4) : Statement (.rdtgt ch) :=
  ⟨rfl, commandWord_masked _ _ _⟩

theorem rdstat (ch : BitVec 4) : Statement (.rdstat ch) :=
  ⟨rfl, commandWord_masked _ _ _⟩

theorem rdrem : Statement .rdrem :=
  ⟨rfl, commandWord_masked _ _ _⟩

theorem rdfrm : Statement .rdfrm :=
  ⟨rfl, commandWord_masked _ _ _⟩

theorem rdedge (j : U16) : Statement (.rdedge j) :=
  ⟨rfl, commandWord_masked _ _ _⟩

theorem rdsys : Statement .rdsys :=
  ⟨rfl, commandWord_masked _ _ _⟩

theorem reserved0 : Statement .reserved0 :=
  ⟨rfl, commandWord_masked _ _ _⟩

theorem reserved7 : Statement .reserved7 :=
  ⟨rfl, commandWord_masked _ _ _⟩

theorem reservedF : Statement .reservedF :=
  ⟨rfl, commandWord_masked _ _ _⟩

theorem eset (ch : BitVec 4) (dt : U16) : Statement (.eset ch dt) :=
  ⟨rfl, edgeBits_masked _ _ _⟩

theorem eclr (ch : BitVec 4) (dt : U16) : Statement (.eclr ch dt) :=
  ⟨rfl, edgeBits_masked _ _ _⟩

theorem service : Statement .service := trivial

theorem profile : Statement .profile := trivial

theorem frame : Statement .frame := trivial

theorem accum : Statement .accum := trivial

theorem sched : Statement .sched := trivial

theorem reload : Statement .reload := trivial

theorem tick : Statement .tick := trivial

theorem dispatch : Statement .dispatch := trivial

theorem reset : Statement .reset := trivial

end Sys2Proof.Laws.OpcodeTable
end

