-- ==== Sys2Proof/Laws/Sched.lean ====
section
/-! SUPPORT. The sort of a group, the times of the edges, and the fields of the entries SCHED writes. -/

namespace Sys2Proof.Machine

/-! The sort (43_schedule.md R142). -/

theorem sortsBefore_iff (k : Chan → Nat) (a b : Chan) :
    sortsBefore k a b = true ↔ k a < k b ∨ (k a = k b ∧ a < b) := by
  simp [sortsBefore]

theorem sortsBefore_total (k : Chan → Nat) (a b : Chan) (hne : a ≠ b) (h : ¬sortsBefore k a b = true) :
    sortsBefore k b a = true := by
  rw [sortsBefore_iff] at *
  have hv : a.val ≠ b.val := fun e => hne (Fin.ext e)
  simp only [Fin.lt_def] at *
  omega

theorem sortsBefore_trans (k : Chan → Nat) (a b c : Chan) (h1 : sortsBefore k a b = true)
    (h2 : sortsBefore k b c = true) : sortsBefore k a c = true := by
  rw [sortsBefore_iff] at *
  simp only [Fin.lt_def] at *
  omega

/-- Inserting into a sorted pair gives a sorted triple of the same channels. -/
theorem insertChannel_pair (k : Chan → Nat) (x y z : Chan) (hxy : x ≠ y) (hxz : x ≠ z)
    (h : sortsBefore k y z = true) :
    ∃ a b c : Chan, insertChannel k x [y, z] = [a, b, c] ∧ sortsBefore k a b = true ∧ sortsBefore k b c = true ∧
      [a, b, c].Perm [x, y, z] := by
  simp only [insertChannel]
  by_cases h1 : sortsBefore k x y = true
  · exact ⟨x, y, z, by simp [h1], h1, h, .refl _⟩
  · by_cases h2 : sortsBefore k x z = true
    · exact ⟨y, x, z, by simp [h1, h2], sortsBefore_total k x y hxy h1, h2, .swap x y [z]⟩
    · exact ⟨y, z, x, by simp [h1, h2], h, sortsBefore_total k x z hxz h2,
        (List.perm_append_comm (l₁ := [y, z]) (l₂ := [x]))⟩

theorem groupChannel_injective (g : Group) (i j : Fin 3) (h : groupChannel g i = groupChannel g j) : i = j := by
  simp only [groupChannel, Fin.mk.injEq] at h
  exact Fin.ext (by omega)

/-- The sorted order of a group: its three channels, each before the next. -/
theorem sortedGroup_sorted (k : Chan → Nat) (g : Group) :
    ∃ a b c : Chan, sortedGroup k g = [a, b, c] ∧ sortsBefore k a b = true ∧ sortsBefore k b c = true ∧
      [a, b, c].Perm [groupChannel g 0, groupChannel g 1, groupChannel g 2] := by
  have ne (i j : Fin 3) (h : i ≠ j) : groupChannel g i ≠ groupChannel g j :=
    fun e => h (groupChannel_injective g i j e)
  have h01 := ne 0 1 (by decide)
  have h02 := ne 0 2 (by decide)
  have h12 := ne 1 2 (by decide)
  by_cases h : sortsBefore k (groupChannel g 1) (groupChannel g 2) = true
  · obtain ⟨a, b, c, e, h1, h2, hp⟩ := insertChannel_pair k _ _ _ h01 h02 h
    exact ⟨a, b, c, by simpa [sortedGroup, insertChannel, h] using e, h1, h2, hp⟩
  · obtain ⟨a, b, c, e, h1, h2, hp⟩ := insertChannel_pair k _ _ _ h02 h01 (sortsBefore_total k _ _ h12 h)
    exact ⟨a, b, c, by simpa [sortedGroup, insertChannel, h] using e, h1, h2, hp.trans (.cons _ (.swap _ _ []))⟩

/-- The sorted channels belong to their group. -/
theorem sortedChannel_group (k : Chan → Nat) (g : Group) (i : Fin 3) : (sortedChannel k g i).val / 3 = g.val := by
  obtain ⟨a, b, c, e, _, _, hp⟩ := sortedGroup_sorted k g
  have hm : sortedChannel k g i ∈ [a, b, c] := by
    unfold sortedChannel; rw [e]; fin_cases i <;> simp
  have hm' := hp.mem_iff.mp hm
  simp only [groupChannel, List.mem_cons, List.not_mem_nil, or_false, Fin.ext_iff] at hm'
  rcases hm' with h | h | h <;> rw [h] <;> simp <;> omega

/-- The sorted order is strict in the position. -/
theorem sortedChannel_before (k : Chan → Nat) (g : Group) (i j : Fin 3) (h : i < j) :
    sortsBefore k (sortedChannel k g i) (sortedChannel k g j) = true := by
  obtain ⟨a, b, c, e, h1, h2, _⟩ := sortedGroup_sorted k g
  have h3 := sortsBefore_trans k a b c h1 h2
  unfold sortedChannel; rw [e]
  fin_cases i <;> fin_cases j <;> first | exact absurd h (by decide) | simpa

theorem sortedChannel_key_le (k : Chan → Nat) (g : Group) (i j : Fin 3) (h : i ≤ j) :
    k (sortedChannel k g i) ≤ k (sortedChannel k g j) := by
  rcases lt_or_eq_of_le h with h | rfl
  · have := (sortsBefore_iff k _ _).mp (sortedChannel_before k g i j h)
    omega
  · exact le_rfl

theorem sortedChannel_injective (k : Chan → Nat) (g : Group) (i j : Fin 3)
    (h : sortedChannel k g i = sortedChannel k g j) : i = j := by
  by_contra hne
  have irrefl (a : Chan) : ¬sortsBefore k a a = true := by simp [sortsBefore]
  rcases lt_or_gt_of_ne hne with hl | hl
  · exact irrefl _ (h ▸ sortedChannel_before k g i j hl)
  · exact irrefl _ (h ▸ sortedChannel_before k g j i hl)

/-- Every channel of a group has a sorted position. -/
theorem sortedChannel_surjective (k : Chan → Nat) (g : Group) (c : Chan) (h : c.val / 3 = g.val) :
    ∃ i, sortedChannel k g i = c := by
  obtain ⟨a, b, d, e, _, _, hp⟩ := sortedGroup_sorted k g
  have hc : c ∈ [groupChannel g 0, groupChannel g 1, groupChannel g 2] := by
    simp only [groupChannel, List.mem_cons, List.not_mem_nil, or_false, Fin.ext_iff]
    simp; omega
  have hm := hp.mem_iff.mpr hc
  simp only [List.mem_cons, List.not_mem_nil, or_false] at hm
  rcases hm with rfl | rfl | rfl
  · exact ⟨0, by simp [sortedChannel, e]⟩
  · exact ⟨1, by simp [sortedChannel, e]⟩
  · exact ⟨2, by simp [sortedChannel, e]⟩

/-! The keys and the times (43_schedule.md R141, R143 to R146). -/

/-- A key lies in MIN_PULSE - 1 to MAX_PULSE + 1 (43_schedule.md R141). -/
theorem key_bounds (p : Config.Params) (e : Engine) (c : Chan) :
    p.minPulse - 1 ≤ key p e c ∧ key p e c ≤ p.maxPulse + 1 := by
  have h := p.ok
  unfold key keyOfWidth
  split
  · omega
  · split <;> omega

/-- The six times of a group and the time after them (43_schedule.md R145, R146). -/
theorem edgeTime_rise (p : Config.Params) (k : Chan → Nat) (g : Group) (i : Fin 3) (j : EdgeIdx)
    (hj : j.val = 6 * g.val + i.val) :
    edgeTime p k j = 3000 * g.val + p.risingEdgeSpacing * i.val ∧ edgeChannel k j = sortedChannel k g i ∧
      edgeFalls j = false := by
  have hi := i.isLt
  have h1 : edgeGroup j = g := Fin.ext (by simp [edgeGroup]; omega)
  have h2 : edgePosition j = i := Fin.ext (by simp [edgePosition]; omega)
  have h3 : edgeFalls j = false := by simp [edgeFalls]; omega
  simp [edgeTime, edgeChannel, h1, h2, h3, Config.groupSlotTicks]

theorem edgeTime_fall (p : Config.Params) (k : Chan → Nat) (g : Group) (i : Fin 3) (j : EdgeIdx)
    (hj : j.val = 6 * g.val + 3 + i.val) :
    edgeTime p k j = 3000 * g.val + p.risingEdgeSpacing * i.val + k (sortedChannel k g i) ∧
      edgeChannel k j = sortedChannel k g i ∧ edgeFalls j = true := by
  have hi := i.isLt
  have h1 : edgeGroup j = g := Fin.ext (by simp [edgeGroup]; omega)
  have h2 : edgePosition j = i := Fin.ext (by simp [edgePosition]; omega)
  have h3 : edgeFalls j = true := by simp [edgeFalls]; omega
  simp [edgeTime, edgeChannel, h1, h2, h3, Config.groupSlotTicks]

/-- Every entry is a rising or a falling edge of one group and position. -/
theorem edgeIdx_cases (j : EdgeIdx) :
    ∃ (g : Group) (i : Fin 3), j.val = 6 * g.val + i.val ∨ j.val = 6 * g.val + 3 + i.val := by
  have := j.isLt
  refine ⟨⟨j.val / 6, by omega⟩, ⟨j.val % 3, by omega⟩, ?_⟩
  simp only
  omega

/-- The edge after entry j comes at least RISING_EDGE_SPACING later (43_schedule.md R149). -/
theorem edgeTime_add_spacing_le (p : Config.Params) (e : Engine) (j : EdgeIdx) :
    edgeTime p (key p e) j + p.risingEdgeSpacing ≤ nextEdgeTime p (key p e) j ∧
      nextEdgeTime p (key p e) j ≤ 20000 := by
  have hok := p.ok
  obtain ⟨g, i, hj⟩ := edgeIdx_cases j
  have hg := g.isLt
  have hi := i.isLt
  have kb := fun c => key_bounds p e c
  generalize hk : key p e = k at *
  have b0 := kb (sortedChannel k g 0)
  have b1 := kb (sortedChannel k g 1)
  have b2 := kb (sortedChannel k g 2)
  have o01 := sortedChannel_key_le k g 0 1 (by decide)
  have o12 := sortedChannel_key_le k g 1 2 (by decide)
  have gs : Config.groupSlotTicks = 3000 := rfl
  have dl : Config.dispatchLatency = 0 := rfl
  have i0 : ((0 : Fin 3) : Nat) = 0 := rfl
  have i1 : ((1 : Fin 3) : Nat) = 1 := rfl
  have i2 : ((2 : Fin 3) : Nat) = 2 := rfl
  rcases hj with hj | hj
  · have hnext (h : j.val + 1 < 24) : nextEdgeTime p k j = edgeTime p k ⟨j.val + 1, h⟩ := by
      simp [nextEdgeTime, h]
    rw [hnext (by omega), (edgeTime_rise p k g i j hj).1]
    have : i = 0 ∨ i = 1 ∨ i = 2 := by omega
    rcases this with rfl | rfl | rfl
    · rw [(edgeTime_rise p k g 1 _ (by simp; omega)).1]; simp only [i0, i1]; omega
    · rw [(edgeTime_rise p k g 2 _ (by simp; omega)).1]; simp only [i1, i2]; omega
    · rw [(edgeTime_fall p k g 0 _ (by simp; omega)).1]; simp only [i0, i2]; omega
  · rw [(edgeTime_fall p k g i j hj).1]
    have : i = 0 ∨ i = 1 ∨ i = 2 := by omega
    by_cases h : j.val + 1 < 24
    · have hnext : nextEdgeTime p k j = edgeTime p k ⟨j.val + 1, h⟩ := by simp [nextEdgeTime, h]
      rw [hnext]
      rcases this with rfl | rfl | rfl
      · rw [(edgeTime_fall p k g 1 _ (by simp; omega)).1]; simp only [i0, i1]; omega
      · rw [(edgeTime_fall p k g 2 _ (by simp; omega)).1]; simp only [i1, i2]; omega
      · rw [(edgeTime_rise p k ⟨g.val + 1, by omega⟩ 0 _ (by simp; omega)).1]; simp only [i0, i2]; omega
    · have hnext : nextEdgeTime p k j = 20000 := by simp [nextEdgeTime, h, Config.frameTicks]
      rw [hnext]
      rcases this with rfl | rfl | rfl <;> simp only [i0, i1, i2] at * <;> omega

/-! The entries SCHED writes (43_schedule.md R147). -/

theorem sched_entryChan (p : Config.Params) (e : Engine) (j : EdgeIdx) :
    entryChan (sched p e) j = (edgeChannel (key p e) j).val := by
  have := (edgeChannel (key p e) j).isLt
  simp only [entryChan, sched_edge, Fin.getElem_fin, Vector.getElem_ofFn, schedEntry, chField_edgeBits, Fin.eta,
    BitVec.toNat_ofNat]
  omega

theorem sched_entrySets (p : Config.Params) (e : Engine) (j : EdgeIdx) :
    entrySets (sched p e) j = edgeSets p (key p e) j := by
  simp [entrySets, schedEntry]

/-- DT is the time to the following edge (43_schedule.md R146). -/
theorem sched_entryTicks (p : Config.Params) (e : Engine) (j : EdgeIdx) :
    edgeTime p (key p e) j + entryTicks (sched p e) j = nextEdgeTime p (key p e) j := by
  have h := edgeTime_add_spacing_le p e j
  simp only [entryTicks, sched_edge, Fin.getElem_fin, Vector.getElem_ofFn, schedEntry, dtField_edgeBits, Fin.eta,
    BitVec.toNat_ofNat]
  omega

end Sys2Proof.Machine
end

