-- ==== Sys2Proof/Laws/Step.lean ====
section
/-! SUPPORT. What a step can do, said once: the turn it takes and the operation that turn runs. -/

namespace Sys2Proof.Machine

/-- Taking a turn leaves the engine and the parameters alone and empties the response port. -/
@[simp] theorem takeTurn_eng (s : State) : (takeTurn s).2.eng = s.eng := by
  unfold takeTurn; split <;> rfl

@[simp] theorem takeTurn_cfg (s : State) : (takeTurn s).2.cfg = s.cfg := by
  unfold takeTurn; split <;> rfl

@[simp] theorem takeTurn_resp (s : State) : (takeTurn s).2.resp = none := by
  unfold takeTurn; split <;> rfl

theorem takeTurn_script (s : State) (t : Config.Turn) (rest : List Config.Turn) (h : s.script = t :: rest) :
    takeTurn s = (t, { s with script := rest, resp := none }) := by
  unfold takeTurn; rw [h]

theorem takeTurn_free (s : State) (h : s.script = []) :
    takeTurn s = (Config.turn s.turnNo, { s with turnNo := s.turnNo + 1, resp := none }) := by
  unfold takeTurn; rw [h]

/-- The five things a turn can be, with what it runs. -/
theorem turnInstr_cases (t : Config.Turn) (en : Bool) :
    (t.reset = true ∧ turnInstr t en = some .reset) ∨
    (∃ w, t = ⟨false, .command w⟩ ∧ turnInstr t en = some (decodeCommand w)) ∨
    (t = ⟨false, .service⟩ ∧ en = true ∧ turnInstr t en = some .service) ∨
    (t = ⟨false, .tick⟩ ∧ en = true ∧ turnInstr t en = some .tick) ∨
    ((t = ⟨false, .service⟩ ∨ t = ⟨false, .tick⟩) ∧ en = false ∧ turnInstr t en = none) := by
  obtain ⟨r, ev⟩ := t
  cases r <;> cases ev <;> cases en <;> simp [turnInstr]

/-- A step, case by case: RESET, a decoded command word, SERVICE or TICK while EN = 1, or a turn with EN = 0 that changes
nothing but the turn taken. -/
theorem step_cases (s : State) :
    ((takeTurn s).1.reset = true ∧ step s = exec .reset (takeTurn s).2) ∨
    (∃ w, (takeTurn s).1 = ⟨false, .command w⟩ ∧ step s = exec (decodeCommand w) (takeTurn s).2) ∨
    ((takeTurn s).1 = ⟨false, .service⟩ ∧ s.eng.en = true ∧ step s = exec .service (takeTurn s).2) ∨
    ((takeTurn s).1 = ⟨false, .tick⟩ ∧ s.eng.en = true ∧ step s = exec .tick (takeTurn s).2) ∨
    (((takeTurn s).1 = ⟨false, .service⟩ ∨ (takeTurn s).1 = ⟨false, .tick⟩) ∧ s.eng.en = false ∧
      step s = .next (takeTurn s).2) := by
  unfold step
  rcases turnInstr_cases (takeTurn s).1 s.eng.en with h | ⟨w, h, h'⟩ | ⟨h, h', h''⟩ | ⟨h, h', h''⟩ | ⟨h, h', h''⟩
  · exact .inl ⟨h.1, by rw [h.2]⟩
  · exact .inr (.inl ⟨w, h, by rw [h']⟩)
  · exact .inr (.inr (.inl ⟨h, h', by rw [h'']⟩))
  · exact .inr (.inr (.inr (.inl ⟨h, h', by rw [h'']⟩)))
  · exact .inr (.inr (.inr (.inr ⟨h, h', by rw [h'']⟩)))

/-- The sixteen operations a command word can decode to. -/
theorem decodeCommand_cases (w : Word) :
    (∃ ch v, decodeCommand w = .setw ch v ∨ decodeCommand w = .sets ch v) ∨
    (∃ v, decodeCommand w = .sett v ∨ decodeCommand w = .rdedge v) ∨
    (∃ ch, decodeCommand w = .hold ch ∨ decodeCommand w = .rdcur ch ∨ decodeCommand w = .rdtgt ch ∨
      decodeCommand w = .rdstat ch) ∨
    decodeCommand w ∈ [Instr.go, .start, .rdrem, .rdfrm, .rdsys, .reserved0, .reserved7, .reservedF] := by
  unfold decodeCommand
  split <;> simp

end Sys2Proof.Machine
end

