-- ==== Sys2Proof/Tests/Slice0.lean ====
section
/-! SUPPORT. Tests. Every expected value is written out from spec/95_test_vectors.md (named by its V number) or
from the encoding rules of 30_encoding.md; the witnesses at the end show that the hypotheses of the statements are met. -/

namespace Sys2Proof.Tests

open Sys2Proof Sys2Proof.Machine

set_option Elab.async false

/-! The ill-formed terms that WellFormed refuses (30_encoding.md R89). -/

theorem test_wellFormed_eset : (Instr.eset 12 0).wellFormed = false ∧ (Instr.eset 11 0).wellFormed = true := by decide
theorem test_wellFormed_eclr : (Instr.eclr 15 20).wellFormed = false ∧ (Instr.eclr 0 20).wellFormed = true := by decide

/-! Decoding, one word per constructor, V80 to V95 and V62, V75, V79. -/

theorem test_decode_setw : decodeCommand 0x100005DC#32 = .setw 0 1500 ∧ decodeCommand 0x1B00FFFF#32 = .setw 11 65535 := by
  decide
theorem test_decode_setw_ignores_rsv : decodeCommand 0x1234ABCD#32 = .setw 2 0xABCD := by decide
theorem test_decode_sets : decodeCommand 0x230001F4#32 = .sets 3 500 := by decide
theorem test_decode_sett : decodeCommand 0x300003E8#32 = .sett 1000 ∧ decodeCommand 0x3B0003E8#32 = .sett 1000 := by decide
theorem test_decode_go : decodeCommand 0x40000000#32 = .go := by decide
theorem test_decode_hold : decodeCommand 0x57000000#32 = .hold 7 := by decide
theorem test_decode_start : decodeCommand 0x60000000#32 = .start := by decide
theorem test_decode_rdcur : decodeCommand 0x80000000#32 = .rdcur 0 := by decide
theorem test_decode_rdtgt : decodeCommand 0x92000000#32 = .rdtgt 2 := by decide
theorem test_decode_rdstat : decodeCommand 0xA5000000#32 = .rdstat 5 := by decide
theorem test_decode_rdrem : decodeCommand 0xB0000000#32 = .rdrem := by decide
theorem test_decode_rdfrm : decodeCommand 0xC0000000#32 = .rdfrm := by decide
theorem test_decode_rdedge : decodeCommand 0xD0000017#32 = .rdedge 23 := by decide
theorem test_decode_rdsys : decodeCommand 0xE0000000#32 = .rdsys := by decide
theorem test_decode_reserved : decodeCommand 0x00000000#32 = .reserved0 ∧ decodeCommand 0x70001234#32 = .reserved7 ∧
    decodeCommand 0xF0000000#32 = .reservedF := by decide
theorem test_decode_eset : decode .edgeTable 0x001003C0#32 = .ok (.eset 0 960) := by decide
theorem test_decode_eclr : decode .edgeTable 0x000B28DD#32 = .ok (.eclr 11 10461) := by decide
theorem test_decode_edge_invalid : decode .edgeTable 0x002003C0#32 = .error .edgeHighBitsSet ∧
    decode .edgeTable 0x001C0014#32 = .error .edgeChannelAbove11 := by decide
theorem test_encode_words : encode (.setw 2 2000) = some (.commandPort, 0x120007D0#32) ∧
    encode (.eset 10 459) = some (.edgeTable, 0x001A01CB#32) := by decide

/-! Small states. -/

/-- The state a result answers, if it is a next state. -/
def after (r : Result) : Option State :=
  match r with
  | .next s => some s
  | _ => none

/-- What an operation leaves of the engine, read by `f`. -/
def seen {α : Type} (i : Instr) (s : State) (f : State → α) : Option α := (after (exec i s)).map f

/-- The reset state with another engine. -/
def withEng (e : Engine) : State := { State.reset with eng := e }

/-- The reset state after START: enabled, pins driven, the first match 20000 ticks away (V69). -/
def started : State := withEng { Engine.reset with
  en := true, ie := true, poe := Vector.replicate 12 true, tcmp := 20000 }

/-- The start state of V10: channel 0 at 1500 µs, commanded to 2000 µs in 1000 ms, READY. -/
def v10 : State := withEng { Engine.reset with
  cur := Engine.reset.cur.set 0 0x05DC0000, tgt := Engine.reset.tgt.set 0 1500
  pc := Engine.reset.pc.set 0 true, pw := Engine.reset.pw.set 0 2000
  moveT := 1000, ready := true, remain := 777 }

/-- The start state of V66: channel 0 on its way, with a fraction. -/
def v66 : State := withEng { Engine.reset with
  cur := Engine.reset.cur.set 0 0x05E68000, tgt := Engine.reset.tgt.set 0 2000, dpf := Engine.reset.dpf.set 0 655360 }

/-- An enabled engine in the middle of a table, with `word` at CURSOR 2. -/
def atEdge (word : EdgeBits) (tcnt tcmp : U16) (ifl : Bool) : State := withEng { Engine.reset with
  en := true, ie := true, ifl := ifl, tcnt := tcnt, tcmp := tcmp, cursor := 2
  edge := Engine.reset.edge.set 2 word, poe := Vector.replicate 12 true }

/-- The default parameters with HOLD_MODE = jump. -/
def jumping : Config.Params := { Config.Params.default with holdMode := .jump }

/-- The default parameters with DELTA_ROUND = trunc. -/
def truncating : Config.Params := { Config.Params.default with deltaRound := .trunc }

/-! Meanings, one step each. -/

theorem test_setw : seen (.setw 0 1500) State.reset (fun s => (s.eng.pc[0], s.eng.pw[0], s.eng.tgt[0])) =
    some (true, 1500, 0) := by decide +kernel  -- V60
theorem test_setw_dropped : seen (.setw 12 1500) State.reset id = some State.reset := by decide +kernel  -- V62
theorem test_sets : seen (.sets 0 750) State.reset (fun s => (s.eng.ps[0], s.eng.pc[0])) = some (750, false) := by
  decide +kernel  -- V63
theorem test_sett : seen (.sett 1000) State.reset (·.eng.moveT) = some 1000 := by decide +kernel  -- V64
theorem test_go : seen .go State.reset (·.eng.ready) = some true := by decide +kernel  -- V65
theorem test_hold_freeze : seen (.hold 0) v66 (fun s => (s.eng.tgt[0], s.eng.cur[0], s.eng.dpf[0])) =
    some (1510, 0x05E60000, 0) := by decide +kernel  -- V66
theorem test_hold_jump : seen (.hold 0) { v66 with cfg := jumping } (fun s => (s.eng.tgt[0], s.eng.cur[0], s.eng.dpf[0])) =
    some (2000, 0x07D00000, 0) := by decide +kernel  -- V67
theorem test_start : seen .start State.reset id = some started := by decide +kernel  -- V69
theorem test_start_wraps : seen .start (withEng { Engine.reset with tcnt := 60000 }) (·.eng.tcmp) = some 14464 := by
  decide +kernel  -- V71
theorem test_rdcur : seen (.rdcur 0) v66 (·.resp) = some (some 0x05E68000) := by decide +kernel  -- V72
theorem test_rdcur_invalid : seen (.rdcur 12) v66 (·.resp) = some (some 0xFFFFFFFF) := by decide +kernel  -- V74
theorem test_rdtgt : seen (.rdtgt 0) v66 (·.resp) = some (some 0x7D0) := by decide +kernel  -- V72
theorem test_rdstat : seen (.rdstat 0) v66 (·.resp) = some (some 1) ∧ seen (.rdstat 1) v66 (·.resp) = some (some 0) := by
  decide +kernel  -- V72, V73
theorem test_rdrem : seen .rdrem (withEng { Engine.reset with remain := 980 }) (·.resp) = some (some 0x3D4) := by
  decide +kernel  -- V76
theorem test_rdfrm : seen .rdfrm (withEng { Engine.reset with frameCnt := 3 }) (·.resp) = some (some 3) := by
  decide +kernel  -- V76
theorem test_rdedge : seen (.rdedge 2) (atEdge 0x1003C0 0 0 false) (·.resp) = some (some 0x001003C0) := by decide +kernel  -- V51
theorem test_rdedge_invalid : seen (.rdedge 0x20) State.reset (·.resp) = some (some 0xFFFFFFFF) := by decide +kernel  -- V74
theorem test_rdsys : seen .rdsys State.reset (·.resp) = some (some 0x18) ∧
    seen .rdsys started (·.resp) = some (some 0x318) := by decide +kernel  -- V78
theorem test_reserved0 : seen .reserved0 v66 id = some v66 := by decide +kernel  -- V75
theorem test_reserved7 : seen .reserved7 v66 id = some v66 := by decide +kernel  -- V75
theorem test_reservedF : seen .reservedF v66 id = some v66 := by decide +kernel  -- V75
theorem test_profile : seen .profile v10 (fun s => (s.eng.tgt[0], s.eng.dpf[0], s.eng.remain, s.eng.ready, s.eng.pc[0])) =
    some (2000, 655360, 1000, false, false) := by decide +kernel  -- V10
theorem test_profile_zero_speed : seen .profile (withEng { v10.eng with
      pw := v10.eng.pw.set 0 2500, ps := v10.eng.ps.set 0 0, moveT := 0 })
    (fun s => (s.eng.dpf[0], s.eng.remain)) = some (20001, 65535) := by decide +kernel  -- V12
theorem test_accum : seen .accum (withEng { Engine.reset with
      cur := Engine.reset.cur.set 0 0xFF780000, tgt := Engine.reset.tgt.set 0 65531
      dpf := Engine.reset.dpf.set 0 171704320, remain := 10 })
    (fun s => (s.eng.cur[0], s.eng.remain, s.eng.frameCnt)) = some (0xFFFB0000, 0, 1) := by decide +kernel  -- V38b
theorem test_accum_down : seen .accum (withEng { Engine.reset with
      cur := Engine.reset.cur.set 0 0x05DC0000, tgt := Engine.reset.tgt.set 0 1400
      dpf := Engine.reset.dpf.set 0 (-2184534) })
    (fun s => s.eng.cur[0]) = some 0x05BAAAAA := by decide +kernel  -- V33
theorem test_sched : seen .sched (withEng { Engine.reset with
      cur := ((Engine.reset.cur.set 0 0x07D00000).set 1 0x03E80000).set 2 0x05DC0000 })
    (fun s => (s.eng.edge.toList.take 6)) =
    some [0x110014, 0x120014, 0x1003C0, 0x010208, 0x020208, 0x0003C0] := by decide +kernel  -- V42
theorem test_sched_forced : seen .sched (withEng { Engine.reset with
      cur := ((Engine.reset.cur.set 9 0x01F40000).set 10 0x09C40000).set 11 0x01F3FFFF })
    (fun s => (s.eng.edge.toList.drop 18)) =
    some [0x0B0014, 0x190014, 0x1A01CB, 0x0B0015, 0x0907E4, 0x0A210C] := by decide +kernel  -- V44
theorem test_reload : seen .reload State.reset (·.eng.cursor) = some 0 := by decide +kernel  -- R102
theorem test_frame : seen .frame started (fun s => (s.eng.frameCnt, s.eng.cursor, s.eng.edge[23])) =
    some (1, 0, 0x0B28DD) := by decide +kernel  -- V59c
theorem test_service_idle : seen .service (atEdge 0 0 100 false) id = some (atEdge 0 0 100 false) := by decide +kernel  -- V59a
theorem test_service_commits : seen .service (withEng { v10.eng with en := true, ie := true, frameCnt := 2 })
    (fun s => (s.eng.cur[0], s.eng.remain, s.eng.frameCnt, s.eng.edge[5])) =
    some (0x05E60000, 980, 3, 0x0005AA) := by decide +kernel  -- V59d
theorem test_tick_match : seen .tick (atEdge 0x1003C0 19999 20000 false)
    (fun s => (s.eng.tcnt, s.eng.pout[0], s.eng.cursor, s.eng.tcmp, s.eng.ifl)) = some (20000, true, 3, 20960, false) := by
  decide +kernel  -- V51
theorem test_tick_no_match : seen .tick (atEdge 0x1003C0 0xFFFF 464 false) id = some (atEdge 0x1003C0 0 464 false) := by
  decide +kernel  -- V53
theorem test_dispatch : seen .dispatch (atEdge 0x1003C0 20040 20040 true)
    (fun s => (s.eng.pout[0], s.eng.cursor, s.eng.tcmp, s.eng.ifl)) = some (true, 3, 21000, false) := by
  decide +kernel  -- R162
theorem test_dispatch_underrun : seen .dispatch (withEng { started.eng with ifl := true, tcnt := 20000 }) id =
    some (withEng { started.eng with tcnt := 20000, underrun := true }) := by decide +kernel  -- V55
theorem test_eset : seen (.eset 2 459) (atEdge 0 40040 40040 false)
    (fun s => (s.eng.pout[2], s.eng.cursor, s.eng.tcmp)) = some (true, 3, 40499) := by decide +kernel  -- R163
theorem test_eclr : seen (.eclr 11 10461) (withEng { started.eng with
      cursor := 23, tcmp := 29539, pout := Vector.replicate 12 true })
    (fun s => (s.eng.pout[11], s.eng.cursor, s.eng.tcmp)) = some (false, 24, 40000) := by decide +kernel  -- R164
theorem test_reset : seen .reset (atEdge 0x1003C0 7 8 true) id = some State.reset := by decide +kernel  -- R230, R44

/-! The step, on words the host hands over. -/

theorem test_step_command : (after (step (State.reset.withFetchWord 32 0x100005DC))).map (fun s => (s.eng.pc[0], s.eng.pw[0])) =
    some (true, 1500) := by decide +kernel  -- V60
theorem test_step_edge_word : (after (step (State.reset.withFetchWord 32 0x001201CB))).map
    (fun s => (s.eng.pout[2], s.eng.cursor)) = some (true, 1) := by decide +kernel  -- R163
theorem test_decodeTableWord : decodeTableWord 32 0x001003C0 = some (.eset 0 960) ∧
    decodeTableWord 32 0xD0000017 = some (.rdedge 23) ∧ decodeTableWord 32 0x70000000 = some .reserved7 := by decide +kernel

/-! Witnesses: for each statement with hypotheses, a concrete state and operands that meet them, at the ends of the
ranges where its clauses meet. -/

/-- A moving engine in its first frame: channel 0 on its way up, CURSOR = 24, the script of the given turns. -/
def moving (script : List Config.Turn) : State :=
  { State.reset with
    eng := { started.eng with
      cur := Engine.reset.cur.set 0 0x05E68000, tgt := Engine.reset.tgt.set 0 2000, dpf := Engine.reset.dpf.set 0 655360
      ready := true }
    script := script }

/-- The table SCHED builds for `v10`, with EDGE[0] due at the next tick, and the ticks to `n`. -/
def tableStart (n : Nat) : State :=
  { v10 with
    eng := { started.eng with edge := (sched v10.cfg v10.eng).edge, cursor := 0, tcnt := 19999 }
    script := List.replicate n tickTurn }

theorem witness_DecodeReadsBackEveryEncoding :
    (Instr.eset 11 0xFFFF).wellFormed = true ∧ (Instr.rdedge 24).wellFormed = true ∧ Instr.reset.wellFormed = true := by
  decide
theorem witness_SetwMarksChannelAndStoresWidth :
    seen (.setw 11 0xFFFF) State.reset (fun s => (s.eng.pc[11], s.eng.pw[11], s.eng.pc[10])) = some (true, 0xFFFF, false) ∧
    seen (.setw 12 0xFFFF) State.reset id = some State.reset := by decide +kernel
theorem witness_SetsStoresSpeedAndCommandsNothing :
    seen (.sets 11 7) v10 (fun s => (s.eng.ps[11], s.eng.ready)) = some (7, true) ∧
    seen (.sets 12 7) v10 id = some v10 := by decide +kernel
theorem witness_SettStoresStickyDuration : (seen .profile v10 (·.eng.moveT)) = some 1000 := by decide +kernel
theorem witness_GoRaisesReady : v10.eng.ready = true ∧ (∀ c : Chan, State.reset.eng.pc[c] = false) ∧
    State.reset.eng.en = false ∧ (takeTurn { State.reset with script := [tickTurn] }).1.reset = false ∧
    started.eng.en = true ∧ started.eng.cursor = 24 ∧ (atEdge 0 0 0 false).eng.cursor ≠ 24 ∧
    seen .go State.reset (fun s => seen .profile s (·.eng.ps[0])) = some (some 0xFFFF) := by decide +kernel
theorem witness_HoldForcesCurrentToEqualTarget :
    seen (.hold 11) v66 (·.eng.dpf[0]) = some 655360 ∧ seen (.hold 12) v66 id = some v66 ∧
    v66.cfg.holdMode = .freeze ∧ ({ v66 with cfg := jumping } : State).cfg.holdMode = .jump := by decide +kernel
theorem witness_StartEnablesEngineOnce : started.eng.en = true ∧ seen .start started id = some started ∧
    State.reset.eng.en = false := by decide +kernel
theorem witness_ReservedWordsDroppedWritesUnanswered :
    (after (step { v66 with script := [commandTurn 0x7FFFFFFF] })) = some v66 ∧
    (after (step { v66 with script := [commandTurn 0xF0000000] })) = some v66 ∧
    (0x7FFFFFFF#32).getLsbD 31 = false ∧ (0xF0000000#32).extractLsb' 28 4 = 0xF#4 := by decide +kernel
theorem witness_RdcurRdtgtAnswerChannelWidths :
    seen (.rdcur 11) v66 (·.resp) = some (some 0) ∧ seen (.rdtgt 12) v66 (·.resp) = some (some 0xFFFFFFFF) := by
  decide +kernel
theorem witness_RdstatAnswersStatusCode : seen (.rdstat 11) v66 (·.resp) = some (some 0) ∧
    seen (.rdstat 12) v66 (·.resp) = some (some 0xFFFFFFFF) ∧
    seen (.rdstat 0) { v66 with eng := { v66.eng with cur := v66.eng.cur.set 0 0x07D00000 } } (·.resp) =
      some (some 2) := by decide +kernel
theorem witness_RdedgeAnswersEdgeWord : seen (.rdedge 23) State.reset (·.resp) = some (some 0) ∧
    seen (.rdedge 24) State.reset (·.resp) = some (some 0xFFFFFFFF) := by decide +kernel
theorem witness_EngineInv : EngineInv (moving []).eng :=
  ⟨by decide +kernel, by decide +kernel, by decide +kernel, by decide +kernel, by decide +kernel, rfl, rfl,
    by decide +kernel⟩
theorem witness_ValidReadsNeverAnswerAllOnes : EngineInv (moving []).eng ∧
    (after (exec (.rdcur 11) (moving []))).isSome = true ∧ (after (exec (.rdedge 23) (moving []))).isSome = true :=
  ⟨witness_EngineInv, by decide +kernel⟩
theorem witness_NoCommandWordTouchesDispatcherState : started.eng.en = true ∧ started.eng.ie = true ∧
    (0x80000000#32).getLsbD 31 = true := by decide +kernel
theorem witness_MoveDurationIsMaximumOfVotes : v10.eng.pc[0] = true ∧ v10.eng.pw[0].toNat = 2000 ∧
    v10.eng.cur[0].toNat / 65536 = 1500 ∧ moveDuration v10.eng = 1000 := by decide +kernel
theorem witness_ProfileConsumesPendingFile : v10.eng.ready = true ∧ v10.eng.pc[1] = false := by decide +kernel
theorem witness_ProfileSnapsSentinelsAndZeroDuration : v10.eng.ready = true ∧ v10.eng.pc[0] = true ∧
    seen .profile (withEng { v10.eng with pw := v10.eng.pw.set 0 0 }) (fun s => (s.eng.cur[0], s.eng.dpf[0], s.eng.remain)) =
      some (0, 0, 777) := by decide +kernel  -- V15
theorem witness_ProfileDeltaIsQuotientRounded : v10.eng.ready = true ∧
    timeProfiled v10.eng (moveDuration v10.eng) 0 = true ∧ v10.cfg.deltaRound = .away ∧
    ({ v10 with cfg := truncating } : State).cfg.deltaRound = .trunc := by decide +kernel
theorem witness_ProfileSetsRemainingTime : v10.eng.ready = true ∧
    seen .profile (withEng { v10.eng with pc := Vector.replicate 12 false }) (·.eng.remain) = some 777 := by decide +kernel
theorem witness_RepeatedCommandGivesSameSchedule : v10.eng.ready = true ∧ (after (exec .profile v10)).isSome = true := by
  decide +kernel
theorem witness_AccumApproachesTargetMonotonically : (moving []).eng.cursor = 24 ∧ EngineInv (moving []).eng :=
  ⟨rfl, witness_EngineInv⟩
theorem witness_ProfiledChannelArrivesInCeilFrames : v10.eng.ready = true ∧ v10.eng.cursor = 24 ∧
    v10.cfg.deltaRound = .away ∧ timeProfiled v10.eng (moveDuration v10.eng) 0 = true ∧
    (moveDuration v10.eng + 19) / 20 ≤ 50 := by decide +kernel
theorem witness_SchedStatements : State.reset.eng.cursor = 24 ∧ v10.eng.cursor = 24 ∧ State.reset.cfg = v10.cfg ∧
    (∀ c : Chan, c.val / 3 = 3 → State.reset.eng.cur[c].toNat / 65536 = v10.eng.cur[c].toNat / 65536) ∧
    (after (exec .sched v10)).isSome = true ∧ (after (exec .sched State.reset)).isSome = true := by decide +kernel
theorem witness_PulseLastsWholeMicroseconds : v10.eng.cur[1].toNat / 65536 < v10.cfg.minPulse ∧
    v10.cfg.minPulse ≤ v10.eng.cur[0].toNat / 65536 ∧ v10.eng.cur[0].toNat / 65536 ≤ v10.cfg.maxPulse ∧
    v10.cfg.maxPulse < (0xFFFF0000#32).toNat / 65536 := by decide +kernel
theorem witness_ServiceCommitsThenBuildsFrame : (moving []).eng.en = true ∧ (moving []).eng.ready = true ∧
    (moving []).eng.cursor = 24 := by decide +kernel
theorem witness_TableWrittenOnlyWhenDrained :
    ((after (step (moving [⟨false, .service⟩]))).map (fun t => decide (t.eng.edge ≠ Engine.reset.edge))) = some true := by
  decide +kernel
theorem witness_EdgeWordsDrivePinAndAdvance : (11#4).toNat < 12 ∧ (atEdge 0 0 0 false).eng.cursor ≠ 24 := by
  decide +kernel
theorem witness_DispatchExecutesWordAtCursor : (atEdge 0x1003C0 0 0 true).eng.ifl = true ∧
    (atEdge 0x1003C0 0 0 true).eng.ie = true ∧ (atEdge 0x1003C0 0 0 true).eng.cursor.val = (2 : EdgeIdx).val ∧
    entryChan (atEdge 0x1003C0 0 0 true).eng 2 < 12 := by decide +kernel
theorem witness_UnderrunRecordsAndChangesNothingElse :
    let s := withEng { started.eng with ifl := true }
    s.eng.ifl = true ∧ s.eng.ie = true ∧ s.eng.cursor = 24 := by decide +kernel
theorem witness_TickCountsAndDispatchesOnMatch : (atEdge 0 100 20000 false).eng.en = true ∧
    (atEdge 0 100 20000 false).eng.tcnt + 1 ≠ (atEdge 0 100 20000 false).eng.tcmp ∧
    (atEdge 0 19999 20000 false).eng.tcnt + 1 = (atEdge 0 19999 20000 false).eng.tcmp ∧
    seen .tick (withEng { (atEdge 0 19999 20000 false).eng with ie := false }) (·.eng.ifl) = some true := by decide +kernel
theorem witness_TickTouchesOnlyTimerCursorAndOnePin :
    seen .tick (atEdge 0x1B0014 19999 20000 false) (·.eng.pout[11]) = some true := by decide +kernel
theorem witness_TicksBeforeMatchOnlyCount :
    let s := { atEdge 0 0xFFFE 2 false with script := List.replicate 3 tickTurn ++ [] }
    s.eng.en = true ∧ s.eng.ifl = false ∧
    (∀ m : Fin 4, 1 ≤ m.val → s.eng.tcnt + BitVec.ofNat 16 m.val ≠ s.eng.tcmp) := by decide +kernel
theorem witness_EdgesFireAtTheirAbsoluteTimes :
    let s := tableStart (edgeTime v10.cfg (key v10.cfg v10.eng) 2 + 1)
    s.eng.en = true ∧ s.eng.ie = true ∧ s.eng.ifl = false ∧ s.eng.cursor = 0 ∧
    s.eng.edge = (sched s.cfg v10.eng).edge ∧ s.eng.tcmp = s.eng.tcnt + 1 ∧ s.script.length = 41 := by decide +kernel
theorem witness_OperationsOutsideTheirTriggersStop : State.reset.eng.en = false ∧
    (atEdge 0 0 0 false).eng.cursor ≠ 24 ∧ (11#4).toNat < 12 ∧ 12 ≤ (12#4).toNat ∧
    ¬(State.reset.eng.ifl = true ∧ State.reset.eng.ie = true) ∧ State.reset.eng.ready = false := by decide +kernel
theorem witness_StepRunsDecodedInstruction :
    let s := { atEdge 0x1003C0 19999 20000 false with script := [tickTurn] }
    s.eng.en = true ∧ s.eng.ie = true ∧ s.eng.tcnt + 1 = s.eng.tcmp ∧ s.eng.cursor.val = (2 : EdgeIdx).val ∧
    decode .edgeTable (edgeWord s.eng.edge[2]) = .ok (.eset 0 960) ∧
    decode .commandPort 0x7FFFFFFF = .ok .reserved7 := by decide +kernel
theorem witness_DisabledEngineStandsStill : State.reset.eng.en = false ∧ isServiceTurn ⟨false, .service⟩ = true ∧
    isTickTurn tickTurn = true := by decide +kernel
theorem witness_StepKeepsInvariant : EngineInv (moving [⟨false, .service⟩]).eng ∧
    (after (step (moving [⟨false, .service⟩]))).isSome = true :=
  ⟨witness_EngineInv, by decide +kernel⟩
theorem witness_OnlyResetClearsStickyBits :
    (takeTurn (moving [⟨false, .service⟩])).1.reset = false ∧ (moving []).eng.ready = true ∧
    (after (step (moving [⟨false, .service⟩]))).map (·.eng.ready) = some false := by decide +kernel
theorem witness_CursorAndPinsMoveInOrder :
    (after (step (moving [⟨false, .service⟩]))).map (·.eng.cursor) = some 0 ∧
    (after (step { atEdge 0x1003C0 19999 20000 false with script := [tickTurn] })).map
      (fun t => (t.eng.cursor, t.eng.pout[0])) = some (3, true) := by decide +kernel
/-- A moving engine before START, with START and a paced list of turns to come. -/
def pacedStart : State :=
  { State.reset with
    eng := { (moving []).eng with en := false, ie := false, poe := Vector.replicate 12 false }
    script := commandTurn 0x60000000 :: [tickTurn, ⟨false, .service⟩, commandTurn 0x40000000, tickTurn] }

theorem witness_PacedServiceNeverUnderruns :
    EngineInv pacedStart.eng ∧ pacedStart.eng.en = false ∧ pacedStart.eng.cursor = 24 ∧ pacedStart.eng.underrun = false ∧
    8459 ≤ regenerationWindow pacedStart.cfg ∧ 8459 < pacedStart.cfg.startLeadTicks ∧
    pacedStart.script = ⟨false, .command 0x60000000#32⟩ :: pacedStart.script.tail ∧
    paced 8459 0 pacedStart.script.tail = true ∧ 5 ≤ pacedStart.script.tail.length + 1 :=
  ⟨⟨by decide +kernel, by decide +kernel, by decide +kernel, by decide +kernel, by decide +kernel, rfl, rfl,
    by decide +kernel⟩, by decide +kernel⟩
theorem witness_StartBeginsServiceOnTime :
    pacedStart.eng.en = false ∧ pacedStart.eng.ifl = false ∧ pacedStart.eng.underrun = false ∧
    pacedStart.eng.cursor = 24 ∧ 19999 < pacedStart.cfg.startLeadTicks := by decide +kernel
theorem witness_PacedStepKeepsServiceOnTime :
    8459 ≤ regenerationWindow (moving [tickTurn]).cfg ∧
    ServiceOnTime (moving [tickTurn]).cfg 8459 8458 (moving [tickTurn]).eng ∧
    (moving [tickTurn]).script = tickTurn :: [] ∧ paced 8459 8458 [tickTurn] = true :=
  ⟨by decide +kernel, ⟨rfl, rfl, rfl, rfl, fun _ => by decide +kernel, fun h => absurd rfl h⟩, rfl, by decide +kernel⟩
theorem witness_PacedStep_tableInUse : ServiceOnTime v10.cfg 8459 0 (tableStart 1).eng :=
  ⟨rfl, rfl, rfl, rfl, fun h => absurd h (by decide +kernel), fun _ => ⟨v10.eng, rfl⟩⟩

end Sys2Proof.Tests
end

section
/-! What a step runs: the turn given in the script, the free turn, and the edge word of a matching tick. -/

namespace Sys2Proof.Machine

/-! The operation of each kind of turn (00_scope.md R5, 70_reset_and_hazards.md R230). -/

@[simp] theorem turnInstr_reset (ev : Config.Event) (en : Bool) : turnInstr ⟨true, ev⟩ en = some .reset := rfl

@[simp] theorem turnInstr_command (w : Word) (en : Bool) :
    turnInstr ⟨false, .command w⟩ en = some (decodeCommand w) := rfl

@[simp] theorem turnInstr_service : turnInstr ⟨false, .service⟩ true = some .service := rfl

@[simp] theorem turnInstr_tick : turnInstr ⟨false, .tick⟩ true = some .tick := rfl

/-- A command word has one reading at the command port, and always one (30_encoding.md R80). -/
theorem decode_commandPort_eq_ok_iff (w : Word) (i : Instr) :
    decode .commandPort w = .ok i ↔ decodeCommand w = i := by
  simp [decode]

/-! The turn of a step. -/

/-- A step whose turn stands in the script runs that turn's operation, with the turn removed and the port empty. -/
theorem step_of_script {s : State} {t : Config.Turn} {rest : List Config.Turn} {i : Instr}
    (hs : s.script = t :: rest) (hi : turnInstr t s.eng.en = some i) :
    step s = exec i { s with script := rest, resp := none } := by
  unfold step
  rw [takeTurn_script s t rest hs, hi]

/-- A tick that stands in the script runs TICK while EN = 1 (44_dispatch.md R160). -/
theorem step_of_tick {s : State} {rest : List Config.Turn} (hs : s.script = ⟨false, .tick⟩ :: rest)
    (hen : s.eng.en = true) : step s = execTick { s with script := rest, resp := none } :=
  step_of_script (i := .tick) hs (by rw [hen, turnInstr_tick])

/-- Drawing the free turn is taking it from a script that holds it alone (assumptions 1 and 2). -/
theorem takeTurn_free_eq_scripted (s : State) (h : s.script = []) :
    takeTurn s = takeTurn { s with script := [Config.turn s.turnNo], turnNo := s.turnNo + 1 } := by
  rw [takeTurn_free s h, takeTurn_script _ (Config.turn s.turnNo) [] rfl, ← h]

/-- The step with no turn given is the step of the free turn (assumption 1). -/
theorem step_free_eq_scripted (s : State) (h : s.script = []) :
    step s = step { s with script := [Config.turn s.turnNo], turnNo := s.turnNo + 1 } := by
  unfold step
  rw [← takeTurn_free_eq_scripted s h]

/-! The edge word a matching tick executes. -/

/-- Executing entry j of EDGE is executing the operation its word decodes to (44_dispatch.md R162). -/
theorem runEdgeAt_of_decode {s : State} {j : EdgeIdx} {i : Instr}
    (hd : decode .edgeTable (edgeWord s.eng.edge[j]) = .ok i) : runEdgeAt j s = exec i s := by
  by_cases hch : (chField (edgeWord s.eng.edge[j])).toNat < 12
  · have hword := decodeEdge_edgeWord _ hch
    unfold runEdgeAt
    rw [hword] at hd ⊢
    obtain rfl := Except.ok.inj hd
    cases actField (edgeWord s.eng.edge[j]) <;> rfl
  · rw [decodeEdge_edgeWord_bad _ (by omega)] at hd
    cases hd

/-- The body of DISPATCH with CURSOR = j runs entry j with IF cleared (44_dispatch.md R162). -/
theorem dispatchBody_at {s : State} {j : EdgeIdx} (hj : s.eng.cursor.val = j.val) :
    dispatchBody s = runEdgeAt j (s.withEngine (clearInterrupt s.eng)) := by
  unfold dispatchBody
  rw [(cursorIdx?_eq_some_iff _ j).mpr hj.symm]

/-- A tick whose count reaches TCMP with IE = 1 runs the body of DISPATCH, whatever IF was (44_dispatch.md R160). -/
theorem execTick_of_match {s : State} (hen : s.eng.en = true) (hie : s.eng.ie = true)
    (hmatch : s.eng.tcnt + 1 = s.eng.tcmp) :
    execTick s = dispatchBody (s.withEngine (countTick s.eng)) := by
  have htick : execTick s = dispatchIfPending (s.withEngine (countTick s.eng)) := by
    rcases execTick_cases s with ⟨_, h⟩ | ⟨hdis, _⟩
    · exact h
    · simp [hen] at hdis
  have hpending : (countTick s.eng).ifl = true := by
    rw [countTick_ifl, hmatch, beq_self_eq_true, Bool.or_true]
  rw [htick]
  rcases dispatchIfPending_cases (s.withEngine (countTick s.eng)) with ⟨_, _, h, _⟩ | ⟨hifl | hoff, _⟩
  · exact h
  · cases hpending.symm.trans hifl
  · cases hie.symm.trans hoff

/-- A matching tick executes the word decoded at CURSOR, with TCNT one higher and IF = 0. -/
theorem execTick_of_match_decode {s : State} {j : EdgeIdx} {i : Instr} (hen : s.eng.en = true)
    (hie : s.eng.ie = true) (hmatch : s.eng.tcnt + 1 = s.eng.tcmp) (hj : s.eng.cursor.val = j.val)
    (hd : decode .edgeTable (edgeWord s.eng.edge[j]) = .ok i) :
    execTick s = exec i { s with eng := { s.eng with tcnt := s.eng.tcnt + 1, ifl := false } } :=
  calc execTick s
      = dispatchBody (s.withEngine (countTick s.eng)) := execTick_of_match hen hie hmatch
    _ = runEdgeAt j (s.withEngine (clearInterrupt (countTick s.eng))) := dispatchBody_at hj
    _ = exec i (s.withEngine (clearInterrupt (countTick s.eng))) := runEdgeAt_of_decode hd

/-- Settles O49: each kind of turn through `step_of_script`, the matching tick through `execTick_of_match_decode`. -/
theorem stepRunsDecodedInstruction : Obligations.StepRunsDecodedInstruction := by
  unfold Obligations.StepRunsDecodedInstruction
  refine ⟨?reset, ?command, ?service, ?tick, ?matchingTick, step_free_eq_scripted⟩
  case reset =>
    intro s rest ev hs
    exact step_of_script hs (turnInstr_reset ev s.eng.en)
  case command =>
    intro s rest w i hs hd
    obtain rfl := (decode_commandPort_eq_ok_iff w i).mp hd
    exact step_of_script hs (turnInstr_command w s.eng.en)
  case service =>
    intro s rest hs hen
    exact step_of_script hs (by rw [hen, turnInstr_service])
  case tick =>
    intro s rest hs hen
    exact step_of_tick hs hen
  case matchingTick =>
    intro s rest j i hs hen hie hmatch hj hd
    rw [step_of_tick hs hen]
    exact execTick_of_match_decode (s := { s with script := rest, resp := none }) hen hie hmatch hj hd

end Sys2Proof.Machine
end

section
/-! What a step can do to the engine, said once: one relation for the host commands, one for a tick, one for the whole
step, each tied to the model by an inversion theorem. -/

namespace Sys2Proof.Machine

/-- What a host command can do to the engine (45_host_interface.md R180 to R196). -/
inductive HostEffect (p : Config.Params) (e : Engine) : Engine → Prop
  | unchanged : HostEffect p e e
  | setw (c : Chan) (width : U16) : HostEffect p e (commandChannel c width e)
  | sets (c : Chan) (speed : U16) : HostEffect p e (setPendingSpeed c speed e)
  | sett (ms : U16) : HostEffect p e { e with moveT := ms }
  | go : HostEffect p e { e with ready := true }
  | freeze (c : Chan) : HostEffect p e (freezeChannel c e)
  | jump (c : Chan) : HostEffect p e (jumpChannel c e)
  | start (disabled : e.en = false) : HostEffect p e (startEngine p.startLeadTicks e)

/-- What a tick can do to the engine (44_dispatch.md R160, R162): only count, or count and run DISPATCH on the entry at
CURSOR, or count and record an underrun. -/
inductive TickEffect (e : Engine) : Engine → Prop
  | count (quiet : (countTick e).ifl = false ∨ e.ie = false) : TickEffect e (countTick e)
  | edge (j : EdgeIdx) (c : Chan) (atCursor : j.val = e.cursor.val) (channel : c.val = entryChan e j) :
      TickEffect e (advance (dtField (edgeWord e.edge[j]))
        (writePin c (entrySets e j) (clearInterrupt (countTick e))))
  | underrun (drained : e.cursor = 24) : TickEffect e (raiseUnderrun (clearInterrupt (countTick e)))

/-- What a step can do to the engine, by the turn it takes (00_scope.md R5). -/
inductive StepEffect (p : Config.Params) (turn : Config.Turn) (e : Engine) : Engine → Prop
  | reset (asserted : turn.reset = true) : StepEffect p turn e Engine.reset
  | command (w : Word) (isCommand : turn = ⟨false, .command w⟩) {e' : Engine} (effect : HostEffect p e e') :
      StepEffect p turn e e'
  | service (isService : turn = ⟨false, .service⟩) (enabled : e.en = true) :
      StepEffect p turn e (frameIfDone p (commitIfReady p e))
  | tick (isTick : turn = ⟨false, .tick⟩) (enabled : e.en = true) {e' : Engine} (effect : TickEffect e e') :
      StepEffect p turn e e'
  | still (disabled : e.en = false) : StepEffect p turn e e

/-! The host commands. -/

/-- A host write whose action on each channel is an effect of a host command. -/
theorem hostEffect_of_writeChannel {ch : BitVec 4} {f : Chan → Engine → Engine} {s t : State}
    (hf : ∀ c, HostEffect s.cfg s.eng (f c s.eng)) (h : writeChannel ch f s = .next t) :
    HostEffect s.cfg s.eng t.eng := by
  rcases writeChannel_cases ch f s with ⟨c, _, hw⟩ | ⟨_, hw⟩
  · obtain rfl := Host.Outcome.next.inj (hw.symm.trans h)
    exact hf c
  · obtain rfl := Host.Outcome.next.inj (hw.symm.trans h)
    exact .unchanged

theorem hostEffect_of_readChannel {ch : BitVec 4} {f : Chan → Word} {s t : State}
    (h : readChannel ch f s = .next t) : HostEffect s.cfg s.eng t.eng := by
  rcases readChannel_cases ch f s with ⟨c, _, hr⟩ | ⟨_, hr⟩ <;>
  · obtain rfl := Host.Outcome.next.inj (hr.symm.trans h)
    exact .unchanged

theorem hostEffect_of_hold {ch : BitVec 4} {s t : State} (h : execHold ch s = .next t) :
    HostEffect s.cfg s.eng t.eng := by
  unfold execHold at h
  split at h
  · exact hostEffect_of_writeChannel .freeze h
  · exact hostEffect_of_writeChannel .jump h

theorem hostEffect_of_start {s t : State} (h : execStart s = .next t) : HostEffect s.cfg s.eng t.eng := by
  unfold execStart at h
  split at h
  case isTrue =>
    obtain rfl := Host.Outcome.next.inj h
    exact .unchanged
  case isFalse hdis =>
    obtain rfl := Host.Outcome.next.inj h
    exact .start (by simpa using hdis)

theorem hostEffect_of_rdedge {j : U16} {s t : State} (h : execRdedge j s = .next t) :
    HostEffect s.cfg s.eng t.eng := by
  unfold execRdedge at h
  split at h <;>
  · obtain rfl := Host.Outcome.next.inj h
    exact .unchanged

/-- A command word has one of the effects of `HostEffect`, whatever its bits are. -/
theorem hostEffect_of_command {w : Word} {s t : State} (h : exec (decodeCommand w) s = .next t) :
    HostEffect s.cfg s.eng t.eng := by
  rcases decodeCommand_cases w with
    ⟨ch, v, hw | hw⟩ | ⟨v, hw | hw⟩ | ⟨ch, hw | hw | hw | hw⟩ | hw
  case inr.inr.inr =>
    simp only [List.mem_cons, List.not_mem_nil, or_false] at hw
    rcases hw with hw | hw | hw | hw | hw | hw | hw | hw <;> rw [hw] at h
    case inl =>
      obtain rfl := Host.Outcome.next.inj h
      exact .go
    case inr.inl => exact hostEffect_of_start h
    all_goals
      obtain rfl := Host.Outcome.next.inj h
      exact .unchanged
  all_goals rw [hw] at h
  case inl.inl => exact hostEffect_of_writeChannel (.setw · v) h
  case inl.inr => exact hostEffect_of_writeChannel (.sets · v) h
  case inr.inl.inl =>
    obtain rfl := Host.Outcome.next.inj h
    exact .sett v
  case inr.inl.inr => exact hostEffect_of_rdedge h
  case inr.inr.inl.inl => exact hostEffect_of_hold h
  all_goals exact hostEffect_of_readChannel h

/-! The tick. -/

theorem tickEffect_of_dispatchBody {s t : State} {e : Engine} (he : s.eng = countTick e)
    (h : dispatchBody s = .next t) : TickEffect e t.eng := by
  rcases dispatchBody_cases s with ⟨j, hj, hbody⟩ | ⟨hdrained, hbody⟩
  · rw [hbody] at h
    rcases runEdgeAt_cases j (s.withEngine (clearInterrupt s.eng)) with ⟨c, hc, _, hrun⟩ | ⟨_, _, hrun⟩ | ⟨_, hrun⟩
    · obtain rfl := Host.Outcome.next.inj (hrun.symm.trans h)
      simp only [withEngine_eng, clearInterrupt_edge, he, countTick_edge, countTick_cursor] at hc hj ⊢
      exact .edge j c hj hc
    · cases hrun.symm.trans h
    · cases hrun.symm.trans h
  · obtain rfl := Host.Outcome.next.inj (hbody.symm.trans h)
    rw [withEngine_eng, he]
    exact .underrun (by simpa [he] using hdrained)

theorem tickEffect_of_execTick {s t : State} (h : execTick s = .next t) : TickEffect s.eng t.eng := by
  rcases execTick_cases s with ⟨_, htick⟩ | ⟨_, htick⟩
  · rw [htick] at h
    rcases dispatchIfPending_cases (s.withEngine (countTick s.eng)) with ⟨_, _, hrun, _⟩ | ⟨hquiet, hrun, _⟩
    · exact tickEffect_of_dispatchBody rfl (hrun.symm.trans h)
    · obtain rfl := Host.Outcome.next.inj (hrun.symm.trans h)
      exact .count hquiet
  · cases htick.symm.trans h

/-! The step. -/

theorem eng_of_execService {s t : State} (h : execService s = .next t) :
    t.eng = frameIfDone s.cfg (commitIfReady s.cfg s.eng) := by
  rcases execService_cases s with ⟨_, hserv⟩ | ⟨_, hserv⟩
  · exact congrArg State.eng (Host.Outcome.next.inj (hserv.symm.trans h)).symm
  · cases hserv.symm.trans h

/-- All that a step can do to the engine. -/
theorem stepEffect_of_step {s t : State} (h : step s = .next t) :
    StepEffect s.cfg (takeTurn s).1 s.eng t.eng := by
  rcases step_cases s with ⟨hturn, hs⟩ | ⟨w, hturn, hs⟩ | ⟨hturn, hen, hs⟩ | ⟨hturn, hen, hs⟩ | ⟨_, hen, hs⟩
  all_goals rw [hs] at h
  · obtain rfl := Host.Outcome.next.inj h
    exact .reset hturn
  · exact .command w hturn (by simpa using hostEffect_of_command h)
  · have ht := eng_of_execService h
    rw [takeTurn_cfg, takeTurn_eng] at ht
    exact ht ▸ .service hturn hen
  · exact .tick hturn hen (by simpa using tickEffect_of_execTick h)
  · obtain rfl := Host.Outcome.next.inj h
    rw [takeTurn_eng]
    exact .still hen

end Sys2Proof.Machine
end

section
/-! What each effect leaves unchanged, and how it moves the cursor. -/

namespace Sys2Proof.Machine

variable {p : Config.Params} {e e' : Engine}

/-! The two tests of SERVICE (40_service_loop.md R100). -/

@[simp] theorem commitIfReady_edge : (commitIfReady p e).edge = e.edge := by
  unfold commitIfReady profile; split <;> simp
@[simp] theorem commitIfReady_ifl : (commitIfReady p e).ifl = e.ifl := by
  unfold commitIfReady profile; split <;> simp
@[simp] theorem commitIfReady_ie : (commitIfReady p e).ie = e.ie := by
  unfold commitIfReady profile; split <;> simp
@[simp] theorem commitIfReady_underrun : (commitIfReady p e).underrun = e.underrun := by
  unfold commitIfReady profile; split <;> simp
@[simp] theorem commitIfReady_pout : (commitIfReady p e).pout = e.pout := by
  unfold commitIfReady profile; split <;> simp
@[simp] theorem commitIfReady_poe : (commitIfReady p e).poe = e.poe := by
  unfold commitIfReady profile; split <;> simp

/-- The second test builds a frame exactly when the table is drained. -/
theorem frameIfDone_cases (p : Config.Params) (e : Engine) :
    (e.cursor = 24 ∧ frameIfDone p e = reload (sched p (accum e))) ∨
    (e.cursor ≠ 24 ∧ frameIfDone p e = e) := by
  unfold frameIfDone frame
  by_cases h : e.cursor = 24 <;> simp [h]

@[simp] theorem frameIfDone_ifl : (frameIfDone p e).ifl = e.ifl := by
  unfold frameIfDone frame; split <;> simp
@[simp] theorem frameIfDone_ie : (frameIfDone p e).ie = e.ie := by
  unfold frameIfDone frame; split <;> simp
@[simp] theorem frameIfDone_en : (frameIfDone p e).en = e.en := by
  unfold frameIfDone frame; split <;> simp
@[simp] theorem frameIfDone_underrun : (frameIfDone p e).underrun = e.underrun := by
  unfold frameIfDone frame; split <;> simp
@[simp] theorem frameIfDone_pout : (frameIfDone p e).pout = e.pout := by
  unfold frameIfDone frame; split <;> simp
@[simp] theorem frameIfDone_poe : (frameIfDone p e).poe = e.poe := by
  unfold frameIfDone frame; split <;> simp

/-- SERVICE leaves CURSOR and EDGE alone, or starts with CURSOR = 24 and leaves it at 0 (40_service_loop.md R101, R102). -/
theorem service_cursor_edge (p : Config.Params) (e : Engine) :
    (e.cursor = 24 ∧ (frameIfDone p (commitIfReady p e)).cursor = 0) ∨
    ((frameIfDone p (commitIfReady p e)).cursor = e.cursor ∧
      (frameIfDone p (commitIfReady p e)).edge = e.edge) := by
  rcases frameIfDone_cases p (commitIfReady p e) with ⟨hc, hf⟩ | ⟨_, hf⟩
  · exact .inl ⟨commitIfReady_cursor p e ▸ hc, by rw [hf, reload_cursor]⟩
  · exact .inr ⟨by rw [hf, commitIfReady_cursor], by rw [hf, commitIfReady_edge]⟩

/-! Host commands. -/

theorem HostEffect.edge_eq (h : HostEffect p e e') : e'.edge = e.edge := by cases h <;> rfl
theorem HostEffect.cursor_eq (h : HostEffect p e e') : e'.cursor = e.cursor := by cases h <;> rfl
theorem HostEffect.pout_eq (h : HostEffect p e e') : e'.pout = e.pout := by cases h <;> rfl
theorem HostEffect.underrun_eq (h : HostEffect p e e') : e'.underrun = e.underrun := by cases h <;> rfl
theorem HostEffect.ifl_eq (h : HostEffect p e e') : e'.ifl = e.ifl := by cases h <;> rfl

/-- Only GO moves READY, and it raises it (45_host_interface.md R184). -/
theorem HostEffect.ready_mono (h : HostEffect p e e') (hr : e.ready = true) : e'.ready = true := by
  cases h with
  | go => rfl
  | _ => exact hr

/-- Only START, on a disabled engine, moves the enables (45_host_interface.md R186). -/
theorem HostEffect.enables_cases (h : HostEffect p e e') :
    (e'.en = e.en ∧ e'.ie = e.ie ∧ e'.poe = e.poe) ∨
    (e'.en = true ∧ e'.ie = true ∧ e'.poe = Vector.replicate 12 true) := by
  cases h with
  | start _ => exact .inr ⟨rfl, rfl, rfl⟩
  | _ => exact .inl ⟨rfl, rfl, rfl⟩

/-! Ticks. -/

theorem TickEffect.tgt_eq (h : TickEffect e e') : e'.tgt = e.tgt := by cases h <;> rfl
theorem TickEffect.cur_eq (h : TickEffect e e') : e'.cur = e.cur := by cases h <;> rfl
theorem TickEffect.dpf_eq (h : TickEffect e e') : e'.dpf = e.dpf := by cases h <;> rfl
theorem TickEffect.edge_eq (h : TickEffect e e') : e'.edge = e.edge := by cases h <;> rfl
theorem TickEffect.ready_eq (h : TickEffect e e') : e'.ready = e.ready := by cases h <;> rfl
theorem TickEffect.en_eq (h : TickEffect e e') : e'.en = e.en := by cases h <;> rfl
theorem TickEffect.ie_eq (h : TickEffect e e') : e'.ie = e.ie := by cases h <;> rfl
theorem TickEffect.poe_eq (h : TickEffect e e') : e'.poe = e.poe := by cases h <;> rfl

/-- FAULT_UNDERRUN is sticky in a tick (60_exceptions.md R203). -/
theorem TickEffect.underrun_mono (h : TickEffect e e') (hu : e.underrun = true) : e'.underrun = true := by
  cases h with
  | underrun _ => rfl
  | _ => exact hu

/-- With IE = 1 a tick leaves no interrupt pending: a match is taken in the same step (44_dispatch.md R160). -/
theorem TickEffect.noPending (h : TickEffect e e') (hie : e.ie = true) : e'.ifl = false := by
  cases h with
  | count quiet => exact quiet.resolve_right (by simp [hie])
  | _ => rfl

/-- A cursor that stands on an entry moves to the next one (44_dispatch.md R163). -/
theorem nextCursor_val_of_entry {c : Cursor} {j : EdgeIdx} (hj : j.val = c.val) :
    (nextCursor c).val = c.val + 1 := by
  refine nextCursor_val c fun h => ?_
  have := j.isLt
  rw [h] at hj
  exact absurd hj (Nat.ne_of_lt this)

/-- A tick moves the cursor by one, or moves neither the cursor nor a pin (44_dispatch.md R165). -/
theorem TickEffect.cursor_pout (h : TickEffect e e') :
    e'.cursor.val = e.cursor.val + 1 ∨ (e'.cursor = e.cursor ∧ e'.pout = e.pout) := by
  cases h with
  | edge j c atCursor channel => exact .inl (nextCursor_val_of_entry atCursor)
  | count _ => exact .inr ⟨rfl, rfl⟩
  | underrun _ => exact .inr ⟨rfl, rfl⟩

end Sys2Proof.Machine
end

section
/-! The invariant `EngineInv` in three parts, and what each effect of a step does to each part. -/

namespace Sys2Proof.Machine

/-- The clauses of `EngineInv` about one channel, on its three registers. -/
structure ChannelOk (tgt : U16) (cur dpf : U32) : Prop where
  upward : 0 < dpf.toInt → cur.toNat ≤ q16 tgt
  downward : dpf.toInt < 0 → q16 tgt ≤ cur.toNat
  limp : tgt = 0 → cur = 0
  widest : cur.toNat ≤ 0xFFFF0000

/-- The part of `EngineInv` about the widths. -/
def WidthsOk (e : Engine) : Prop := ∀ c : Chan, ChannelOk e.tgt[c] e.cur[c] e.dpf[c]

/-- The part of `EngineInv` about the Edge table. -/
def TableOk (e : Engine) : Prop := ∀ j : EdgeIdx, entryChan e j < 12

/-- The part of `EngineInv` about the interrupt and the enables. -/
structure EnablesOk (e : Engine) : Prop where
  noPending : e.ifl = false
  enables : e.ie = e.en
  outputs : ∀ c : Chan, e.poe[c] = e.en

theorem engineInv_iff (e : Engine) : EngineInv e ↔ WidthsOk e ∧ TableOk e ∧ EnablesOk e := by
  constructor
  · intro h
    exact ⟨fun c => ⟨h.upward c, h.downward c, h.limp c, h.widest c⟩, h.channels,
      ⟨h.noPending, h.enables, h.outputs⟩⟩
  · rintro ⟨hw, ht, he⟩
    exact ⟨fun c => (hw c).upward, fun c => (hw c).downward, fun c => (hw c).limp, fun c => (hw c).widest, ht,
      he.noPending, he.enables, he.outputs⟩

/-! One channel. -/

/-- A channel at its target is well whatever its delta is. -/
theorem ChannelOk.atTarget (tgt : U16) (dpf : U32) : ChannelOk tgt (q16Word tgt) dpf where
  upward _ := (q16Word_toNat tgt).le
  downward _ := (q16Word_toNat tgt).ge
  limp h := by rw [h]; rfl
  widest := (q16Word_toNat tgt).trans_le (q16_le tgt)

/-- ACCUM clamps at the target, so it never crosses it (42_accumulate.md R131, R133). -/
theorem ChannelOk.of_accum {tgt : U16} {cur dpf : U32} (h : ChannelOk tgt cur dpf) :
    ChannelOk tgt (accumWidth tgt cur dpf) dpf := by
  obtain ⟨hup, hdown, hlimp, hwide⟩ := h
  have hsum := accumWidth_toNat tgt cur dpf
  have hq := q16_le tgt
  constructor
  case upward => intro hd; split_ifs at hsum <;> omega
  case downward => intro hd; split_ifs at hsum <;> omega
  case limp =>
    intro h0
    have hq0 : q16 tgt = 0 := by rw [h0]; rfl
    have hcur0 : cur.toNat = 0 := by rw [hlimp h0]; rfl
    apply BitVec.eq_of_toNat_eq
    change _ = 0
    split_ifs at hsum <;> omega
  case widest => split_ifs at hsum <;> omega

theorem satI32_pos_iff (n : Int) : 0 < satI32 n ↔ 0 < n := by unfold satI32; omega

theorem satI32_neg_iff (n : Int) : satI32 n < 0 ↔ n < 0 := by unfold satI32; omega

theorem toInt_ofInt_satI32 (n : Int) : (BitVec.ofInt 32 (satI32 n)).toInt = satI32 n :=
  toInt_ofInt_of_fits _ (satI32_range n).1 (satI32_range n).2

/-- The delta of PROFILE has the sign of the distance to the pending width, or is 0 (41_profile.md R116). -/
theorem frameDelta_sign (r : Config.DeltaRound) (e : Engine) (dur : Nat) (c : Chan) :
    (0 < frameDelta r e dur c → e.cur[c].toNat ≤ q16 e.pw[c]) ∧
    (frameDelta r e dur c < 0 → q16 e.pw[c] ≤ e.cur[c].toNat) := by
  have hms : Config.framePeriodMs = 20 := rfl
  unfold frameDelta
  constructor
  · intro hpos
    by_contra hlt
    exact absurd hpos (divDelta_nonpos r _ dur (by rw [hms]; omega)).not_gt
  · intro hneg
    by_contra hlt
    exact absurd hneg (divDelta_nonneg r _ dur (by rw [hms]; omega)).not_gt

/-- A channel that takes the delta branch of PROFILE is well with its new target and delta (10_state.md R24). -/
theorem ChannelOk.of_timeProfiled {e : Engine} {dur : Nat} {c : Chan} (r : Config.DeltaRound)
    (hmoves : snaps e dur c = false) (hwide : e.cur[c].toNat ≤ 0xFFFF0000) :
    ChannelOk e.pw[c] e.cur[c] (BitVec.ofInt 32 (satI32 (frameDelta r e dur c))) := by
  obtain ⟨hpos, hneg⟩ := frameDelta_sign r e dur c
  constructor
  case upward => rw [toInt_ofInt_satI32, satI32_pos_iff]; exact hpos
  case downward => rw [toInt_ofInt_satI32, satI32_neg_iff]; exact hneg
  case limp =>
    intro h0
    have hsnap : snaps e dur c = true := by simp [snaps, sentinelInvolved, isSent, h0]
    rw [hsnap] at hmoves
    cases hmoves
  case widest => exact hwide

/-! The widths. -/

variable {p : Config.Params} {e e' : Engine}

/-- The widths are well if every channel's registers are kept or the channel is at its target. -/
theorem WidthsOk.of_kept_or_atTarget (h : WidthsOk e)
    (hc : ∀ c : Chan, (e'.tgt[c] = e.tgt[c] ∧ e'.cur[c] = e.cur[c] ∧ e'.dpf[c] = e.dpf[c]) ∨
      e'.cur[c] = q16Word e'.tgt[c]) : WidthsOk e' := by
  intro c
  rcases hc c with ⟨ht, hcur, hd⟩ | hrest
  · rw [ht, hcur, hd]; exact h c
  · rw [hrest]; exact .atTarget _ _

theorem widthsOk_freezeChannel (h : WidthsOk e) (c : Chan) : WidthsOk (freezeChannel c e) := by
  refine h.of_kept_or_atTarget fun d => ?_
  by_cases hd : c.val = d.val
  · exact .inr (by simp [freezeChannel, hd])
  · exact .inl (by simp [freezeChannel, hd])

theorem widthsOk_jumpChannel (h : WidthsOk e) (c : Chan) : WidthsOk (jumpChannel c e) := by
  refine h.of_kept_or_atTarget fun d => ?_
  by_cases hd : c.val = d.val
  · exact .inr (by simp [jumpChannel, hd])
  · exact .inl (by simp [jumpChannel, hd])

theorem HostEffect.widthsOk (effect : HostEffect p e e') (h : WidthsOk e) : WidthsOk e' := by
  cases effect with
  | freeze c => exact widthsOk_freezeChannel h c
  | jump c => exact widthsOk_jumpChannel h c
  | _ => exact h

theorem TickEffect.widthsOk (effect : TickEffect e e') (h : WidthsOk e) : WidthsOk e' := by
  unfold WidthsOk
  rw [effect.tgt_eq, effect.cur_eq, effect.dpf_eq]
  exact h

/-- PROFILE keeps an uncommanded channel, snaps a commanded one to its target, or points its delta at it. -/
theorem widthsOk_commitPending (h : WidthsOk e) (r : Config.DeltaRound) (dur : Nat) :
    WidthsOk (commitPending r dur e) := by
  intro c
  simp only [commitPending, Fin.getElem_fin, Vector.getElem_ofFn, Fin.eta]
  by_cases hpc : e.pc[c.val] = true
  · by_cases hsnap : snaps e dur c = true
    · simpa [hpc, hsnap] using ChannelOk.atTarget _ _
    · simpa [hpc, hsnap] using ChannelOk.of_timeProfiled r (by simpa using hsnap) (h c).widest
  · simpa [hpc] using h c

theorem widthsOk_commitIfReady (h : WidthsOk e) : WidthsOk (commitIfReady p e) := by
  unfold commitIfReady profile
  split
  · exact widthsOk_commitPending h _ _
  · exact h

theorem widthsOk_accum (h : WidthsOk e) : WidthsOk (accum e) := by
  intro c
  simpa using (h c).of_accum

theorem widthsOk_frameIfDone (h : WidthsOk e) : WidthsOk (frameIfDone p e) := by
  rcases frameIfDone_cases p e with ⟨_, hf⟩ | ⟨_, hf⟩ <;> rw [hf]
  · intro c
    simpa using widthsOk_accum h c
  · exact h

/-! The Edge table. -/

theorem TableOk.of_edge_eq (h : TableOk e) (he : e'.edge = e.edge) : TableOk e' := by
  unfold TableOk entryChan
  rw [he]
  exact h

/-- SCHED writes only words that name a channel (43_schedule.md R147). -/
theorem tableOk_sched (p : Config.Params) (e : Engine) : TableOk (sched p e) := fun j => by
  rw [sched_entryChan]
  exact (edgeChannel (key p e) j).isLt

theorem tableOk_frameIfDone (h : TableOk e) : TableOk (frameIfDone p e) := by
  rcases frameIfDone_cases p e with ⟨_, hf⟩ | ⟨_, hf⟩ <;> rw [hf]
  · exact (tableOk_sched p (accum e)).of_edge_eq (reload_edge _)
  · exact h

/-! The interrupt and the enables. -/

theorem HostEffect.enablesOk (effect : HostEffect p e e') (h : EnablesOk e) : EnablesOk e' := by
  have hifl : e'.ifl = false := effect.ifl_eq.trans h.noPending
  rcases effect.enables_cases with ⟨hen, hie, hpoe⟩ | ⟨hen, hie, hpoe⟩
  · exact ⟨hifl, by rw [hen, hie, h.enables], fun c => by rw [hen, hpoe, h.outputs]⟩
  · exact ⟨hifl, by rw [hen, hie], fun c => by simp [hen, hpoe]⟩

theorem TickEffect.enablesOk (effect : TickEffect e e') (hen : e.en = true) (h : EnablesOk e) : EnablesOk e' where
  noPending := effect.noPending (h.enables.trans hen)
  enables := by rw [effect.ie_eq, effect.en_eq, h.enables]
  outputs c := by rw [effect.poe_eq, effect.en_eq, h.outputs]

theorem enablesOk_service (h : EnablesOk e) : EnablesOk (frameIfDone p (commitIfReady p e)) where
  noPending := by simpa using h.noPending
  enables := by simpa [commitIfReady_en] using h.enables
  outputs c := by simpa [commitIfReady_en] using h.outputs c

/-! The engine. -/

theorem engineInv_reset : EngineInv Engine.reset := by
  refine (engineInv_iff _).mpr ⟨fun c => ?widths, fun j => ?table, ⟨rfl, rfl, fun c => ?outputs⟩⟩
  case widths => simpa [Engine.reset, q16Word, q16] using ChannelOk.atTarget 0 0
  case table => simp [entryChan, Engine.reset, chField, edgeWord]
  case outputs => simp [Engine.reset]

theorem HostEffect.engineInv (effect : HostEffect p e e') (h : EngineInv e) : EngineInv e' := by
  obtain ⟨hw, ht, he⟩ := (engineInv_iff e).mp h
  exact (engineInv_iff e').mpr ⟨effect.widthsOk hw, ht.of_edge_eq effect.edge_eq, effect.enablesOk he⟩

theorem TickEffect.engineInv (effect : TickEffect e e') (hen : e.en = true) (h : EngineInv e) : EngineInv e' := by
  obtain ⟨hw, ht, he⟩ := (engineInv_iff e).mp h
  exact (engineInv_iff e').mpr ⟨effect.widthsOk hw, ht.of_edge_eq effect.edge_eq, effect.enablesOk hen he⟩

theorem engineInv_service (h : EngineInv e) : EngineInv (frameIfDone p (commitIfReady p e)) := by
  obtain ⟨hw, ht, he⟩ := (engineInv_iff e).mp h
  exact (engineInv_iff _).mpr ⟨widthsOk_frameIfDone (widthsOk_commitIfReady hw),
    tableOk_frameIfDone (ht.of_edge_eq commitIfReady_edge), enablesOk_service he⟩

theorem StepEffect.engineInv {turn : Config.Turn} (effect : StepEffect p turn e e') (h : EngineInv e) :
    EngineInv e' := by
  cases effect with
  | reset _ => exact engineInv_reset
  | command w _ effect => exact effect.engineInv h
  | service _ _ => exact engineInv_service h
  | tick _ enabled effect => exact effect.engineInv enabled h
  | still _ => exact h

end Sys2Proof.Machine
end

section
/-! Who writes which component: what a whole step can do to the table, the sticky bits, the cursor and the pins. -/

namespace Sys2Proof.Machine

variable {p : Config.Params} {turn : Config.Turn} {e e' : Engine}

/-- Only RESET, and a SERVICE with CURSOR = 24, can write EDGE (10_state.md R35). -/
theorem StepEffect.edge_eq_or (effect : StepEffect p turn e e') :
    e'.edge = e.edge ∨ turn.reset = true ∨ (isServiceTurn turn = true ∧ e.en = true ∧ e.cursor = 24) := by
  cases effect with
  | reset asserted => exact .inr (.inl asserted)
  | command w _ effect => exact .inl effect.edge_eq
  | service isService enabled =>
    rcases service_cursor_edge p e with ⟨hdrained, _⟩ | ⟨_, hedge⟩
    · exact .inr (.inr ⟨by rw [isService]; rfl, enabled, hdrained⟩)
    · exact .inl hedge
  | tick _ _ effect => exact .inl effect.edge_eq
  | still _ => exact .inl rfl

/-- FAULT_UNDERRUN, EN, IE and POE only go up outside RESET (10_state.md R37, R38, R40). -/
theorem StepEffect.sticky (effect : StepEffect p turn e e') (hnoReset : turn.reset = false) :
    (e.underrun = true → e'.underrun = true) ∧ (e.en = true → e'.en = true) ∧ (e.ie = true → e'.ie = true) ∧
    ∀ c : Chan, e.poe[c] = true → e'.poe[c] = true := by
  cases effect with
  | reset asserted => cases hnoReset.symm.trans asserted
  | command w _ effect =>
    rcases effect.enables_cases with ⟨hen, hie, hpoe⟩ | ⟨hen, hie, hpoe⟩
    · exact ⟨effect.underrun_eq.trans, hen.trans, hie.trans, fun c h => by rw [hpoe, h]⟩
    · exact ⟨effect.underrun_eq.trans, fun _ => hen, fun _ => hie, fun c _ => by simp [hpoe]⟩
  | service _ _ => simp [commitIfReady_en]
  | tick _ _ effect =>
    exact ⟨effect.underrun_mono, effect.en_eq.trans, effect.ie_eq.trans, fun c h => by rw [effect.poe_eq, h]⟩
  | still _ => exact ⟨id, id, id, fun _ h => h⟩

/-- Outside RESET only a SERVICE lowers READY (10_state.md R41). -/
theorem StepEffect.ready_mono_or_service (effect : StepEffect p turn e e') (hnoReset : turn.reset = false)
    (hready : e.ready = true) : e'.ready = true ∨ isServiceTurn turn = true := by
  cases effect with
  | reset asserted => cases hnoReset.symm.trans asserted
  | command w _ effect => exact .inl (effect.ready_mono hready)
  | service isService _ => exact .inr (by rw [isService]; rfl)
  | tick _ _ effect => exact .inl (effect.ready_eq.trans hready)
  | still _ => exact .inl hready

/-- Outside RESET the cursor advances in a tick, or rewinds from 24 in a SERVICE with the pins as they were, or neither it
nor a pin moves (10_state.md R34, R39). -/
theorem StepEffect.cursor_pout (effect : StepEffect p turn e e') (hnoReset : turn.reset = false) :
    (isTickTurn turn = true ∧ e'.cursor.val = e.cursor.val + 1) ∨
    (isServiceTurn turn = true ∧ e.cursor = 24 ∧ e'.cursor = 0 ∧ e'.pout = e.pout) ∨
    (e'.cursor = e.cursor ∧ e'.pout = e.pout) := by
  cases effect with
  | reset asserted => cases hnoReset.symm.trans asserted
  | command w _ effect => exact .inr (.inr ⟨effect.cursor_eq, effect.pout_eq⟩)
  | service isService _ =>
    have hpout : (frameIfDone p (commitIfReady p e)).pout = e.pout := by simp
    rcases service_cursor_edge p e with ⟨hdrained, hcursor⟩ | ⟨hcursor, _⟩
    · exact .inr (.inl ⟨by rw [isService]; rfl, hdrained, hcursor, hpout⟩)
    · exact .inr (.inr ⟨hcursor, hpout⟩)
  | tick isTick _ effect =>
    rcases effect.cursor_pout with hmove | hstay
    · exact .inl ⟨by rw [isTick]; rfl, hmove⟩
    · exact .inr (.inr hstay)
  | still _ => exact .inr (.inr ⟨rfl, rfl⟩)

/-- With EN = 0 a turn of the sequencer or of time runs no operation (10_state.md R37). -/
theorem turnInstr_disabled {t : Config.Turn} (h : isServiceTurn t = true ∨ isTickTurn t = true) :
    turnInstr t false = none := by
  rcases turnInstr_cases t false with ⟨hreset, _⟩ | ⟨w, rfl, _⟩ | ⟨_, hen, _⟩ | ⟨_, hen, _⟩ | ⟨_, _, hnone⟩
  · simp [isServiceTurn, isTickTurn, hreset] at h
  · simp [isServiceTurn, isTickTurn] at h
  · cases hen
  · cases hen
  · exact hnone

end Sys2Proof.Machine
end

section
/-! The statements about the state (10_state.md), each read off the effect of the step. -/

namespace Sys2Proof.Machine

/-- Settles O53: each effect of `StepEffect` keeps each part of the invariant. -/
theorem stepKeepsInvariant : Obligations.StepKeepsInvariant := by
  unfold Obligations.StepKeepsInvariant
  intro s t hinv hstep
  exact (stepEffect_of_step hstep).engineInv hinv

/-- Settles O37, by `StepEffect.edge_eq_or`. -/
theorem tableWrittenOnlyWhenDrained : Obligations.TableWrittenOnlyWhenDrained := by
  unfold Obligations.TableWrittenOnlyWhenDrained
  intro s t hstep hne
  exact (stepEffect_of_step hstep).edge_eq_or.resolve_left hne

/-- Settles O55, by `StepEffect.sticky` and `StepEffect.ready_mono_or_service`. -/
theorem onlyResetClearsStickyBits : Obligations.OnlyResetClearsStickyBits := by
  unfold Obligations.OnlyResetClearsStickyBits
  intro s t hstep hnoReset
  have effect := stepEffect_of_step hstep
  obtain ⟨hunderrun, hen, hie, hpoe⟩ := effect.sticky hnoReset
  refine ⟨hunderrun, hen, hie, hpoe, fun hready hcleared => ?_⟩
  exact (effect.ready_mono_or_service hnoReset hready).resolve_left (by simp [hcleared])

/-- Settles O56, by `StepEffect.cursor_pout`. -/
theorem cursorAndPinsMoveInOrder : Obligations.CursorAndPinsMoveInOrder := by
  unfold Obligations.CursorAndPinsMoveInOrder
  intro s t hstep hnoReset
  rcases (stepEffect_of_step hstep).cursor_pout hnoReset with
    hadvance | ⟨hservice, hdrained, hrewound, hpout⟩ | ⟨hcursor, hpout⟩
  · exact ⟨.inr (.inl hadvance), fun _ => hadvance⟩
  · exact ⟨.inr (.inr ⟨hservice, hdrained, hrewound⟩), fun hne => absurd hpout hne⟩
  · exact ⟨.inl hcursor, fun hne => absurd hpout hne⟩

/-- Settles O47: RESET answers the engine of `Engine.reset`, read field by field. -/
theorem resetWritesEveryResetValue : Obligations.ResetWritesEveryResetValue := by
  unfold Obligations.ResetWritesEveryResetValue
  intro s
  refine ⟨s.withEngine Engine.reset, rfl, rfl, fun c => ?channel, fun j => ?entry, ?scalars⟩
  case channel => simp [Engine.reset]
  case entry => simp [Engine.reset]
  case scalars => simp [Engine.reset]

/-- Settles O50: the turn is taken and runs nothing, by `turnInstr_disabled`. -/
theorem disabledEngineStandsStill : Obligations.DisabledEngineStandsStill := by
  unfold Obligations.DisabledEngineStandsStill
  intro s t rest hscript hdis hturn
  unfold step
  rw [takeTurn_script s t rest hscript, hdis, turnInstr_disabled hturn]

/-- Settles O52. -/
theorem resetStateMeetsInvariant : Obligations.ResetStateMeetsInvariant := by
  unfold Obligations.ResetStateMeetsInvariant
  exact engineInv_reset

end Sys2Proof.Machine
end

section
/-! The fields of a word written out field by field, and what each format decodes it to (30_encoding.md R81 to R85). -/

namespace Sys2Proof

/-! The fields of a format C word (30_encoding.md R81). -/

section
variable (op chn : BitVec 4) (rsv : BitVec 8) (imm : U16)

@[simp] theorem opField_append : opField (op ++ chn ++ rsv ++ imm) = op := by
  rw [opField, BitVec.extractLsb'_append_eq_of_le (by decide), BitVec.extractLsb'_append_eq_of_le (by decide)]
  exact BitVec.extractLsb'_append_eq_left

@[simp] theorem chnField_append : chnField (op ++ chn ++ rsv ++ imm) = chn := by
  rw [chnField, BitVec.extractLsb'_append_eq_of_le (by decide), BitVec.extractLsb'_append_eq_of_le (by decide)]
  exact BitVec.extractLsb'_append_eq_right

@[simp] theorem immField_append : immField (op ++ chn ++ rsv ++ imm) = imm :=
  BitVec.extractLsb'_append_eq_right

end

/-! The fields of a format E word (30_encoding.md R84). -/

section
variable (high : BitVec 11) (act : BitVec 1) (ch : BitVec 4) (dt : U16)

@[simp] theorem edgeHighField_append : edgeHighField (high ++ act ++ ch ++ dt) = high := by
  rw [edgeHighField, BitVec.extractLsb'_append_eq_of_le (by decide), BitVec.extractLsb'_append_eq_of_le (by decide)]
  exact BitVec.extractLsb'_append_eq_left

@[simp] theorem actField_append : actField (high ++ act ++ ch ++ dt) = (act == 1) := by
  have hbit : actField (high ++ act ++ ch ++ dt) = act.getLsbD 0 := by
    rw [actField, BitVec.getLsbD_append, BitVec.getLsbD_append, BitVec.getLsbD_append]
    rfl
  have hone : ∀ b : BitVec 1, b.getLsbD 0 = (b == 1) := by decide
  rw [hbit, hone]

@[simp] theorem chField_append : chField (high ++ act ++ ch ++ dt) = ch := by
  rw [chField, BitVec.extractLsb'_append_eq_of_le (by decide)]
  exact BitVec.extractLsb'_append_eq_right

@[simp] theorem dtField_append : dtField (high ++ act ++ ch ++ dt) = dt :=
  BitVec.extractLsb'_append_eq_right

end

/-! The command port: the decoder reads OP, CHN and IMM only, so one equation per OP code on the word with RSV = 0 says
it for every word (30_encoding.md R82, R88 e). -/

/-- A command word decodes as the word with the same OP, CHN and IMM and RSV = 0. -/
theorem decodeCommand_eq_commandWord (w : Word) :
    decodeCommand w = decodeCommand (commandWord (opField w) (chnField w) (immField w)) := by
  simp only [decodeCommand, opField_commandWord, chnField_commandWord, immField_commandWord]

theorem decode_commandPort_append (op chn : BitVec 4) (rsv : BitVec 8) (imm : U16) :
    decode .commandPort (op ++ chn ++ rsv ++ imm) = .ok (decodeCommand (commandWord op chn imm)) := by
  rw [decode, decodeCommand_eq_commandWord, opField_append, chnField_append, immField_append]

section
variable (chn : BitVec 4) (imm : U16)

@[simp] theorem decodeCommand_reserved0 : decodeCommand (commandWord 0x0#4 chn imm) = .reserved0 := by
  simp [decodeCommand]

@[simp] theorem decodeCommand_setw : decodeCommand (commandWord 0x1#4 chn imm) = .setw chn imm := by
  simp [decodeCommand]

@[simp] theorem decodeCommand_sets : decodeCommand (commandWord 0x2#4 chn imm) = .sets chn imm := by
  simp [decodeCommand]

@[simp] theorem decodeCommand_sett : decodeCommand (commandWord 0x3#4 chn imm) = .sett imm := by
  simp [decodeCommand]

@[simp] theorem decodeCommand_go : decodeCommand (commandWord 0x4#4 chn imm) = .go := by
  simp [decodeCommand]

@[simp] theorem decodeCommand_hold : decodeCommand (commandWord 0x5#4 chn imm) = .hold chn := by
  simp [decodeCommand]

@[simp] theorem decodeCommand_start : decodeCommand (commandWord 0x6#4 chn imm) = .start := by
  simp [decodeCommand]

@[simp] theorem decodeCommand_reserved7 : decodeCommand (commandWord 0x7#4 chn imm) = .reserved7 := by
  simp [decodeCommand]

@[simp] theorem decodeCommand_rdcur : decodeCommand (commandWord 0x8#4 chn imm) = .rdcur chn := by
  simp [decodeCommand]

@[simp] theorem decodeCommand_rdtgt : decodeCommand (commandWord 0x9#4 chn imm) = .rdtgt chn := by
  simp [decodeCommand]

@[simp] theorem decodeCommand_rdstat : decodeCommand (commandWord 0xA#4 chn imm) = .rdstat chn := by
  simp [decodeCommand]

@[simp] theorem decodeCommand_rdrem : decodeCommand (commandWord 0xB#4 chn imm) = .rdrem := by
  simp [decodeCommand]

@[simp] theorem decodeCommand_rdfrm : decodeCommand (commandWord 0xC#4 chn imm) = .rdfrm := by
  simp [decodeCommand]

@[simp] theorem decodeCommand_rdedge : decodeCommand (commandWord 0xD#4 chn imm) = .rdedge imm := by
  simp [decodeCommand]

@[simp] theorem decodeCommand_rdsys : decodeCommand (commandWord 0xE#4 chn imm) = .rdsys := by
  simp [decodeCommand]

@[simp] theorem decodeCommand_reservedF : decodeCommand (commandWord 0xF#4 chn imm) = .reservedF := by
  simp [decodeCommand]

end

/-! The round trip (30_encoding.md R91, R94). -/

/-- The edge word of a channel 0 to 11 decodes to the edge operation of its ACT, CH and DT (30_encoding.md R85). -/
theorem decode_edgeWord_edgeBits (act : Bool) (ch : BitVec 4) (dt : U16) (hch : ch.toNat < 12) :
    decode .edgeTable (edgeWord (edgeBits act ch dt)) = .ok (if act then .eset ch dt else .eclr ch dt) := by
  simpa using decodeEdge_edgeWord (edgeBits act ch dt) (by simpa using hch)

/-- What the encoder writes for a well-formed operation, the decoder of that place reads back. -/
theorem decode_of_encode {i : Instr} {p : Place} {w : Word} (hwf : i.wellFormed = true)
    (henc : encode i = some (p, w)) : decode p w = .ok i := by
  cases i with
  | eset ch dt =>
    cases henc
    exact decode_edgeWord_edgeBits true ch dt (of_decide_eq_true hwf)
  | eclr ch dt =>
    cases henc
    exact decode_edgeWord_edgeBits false ch dt (of_decide_eq_true hwf)
  | service | profile | frame | accum | sched | reload | tick | dispatch | reset => cases henc
  | _ =>
    cases henc
    exact congrArg Except.ok (by simp)

/-- The operations with no encoding are the nine internal ones (30_encoding.md R94). -/
theorem mem_internal_of_encode_eq_none {i : Instr} (henc : encode i = none) :
    i ∈ [Instr.service, .profile, .frame, .accum, .sched, .reload, .tick, .dispatch, .reset] := by
  cases i with
  | service | profile | frame | accum | sched | reload | tick | dispatch | reset => decide
  | _ => cases henc

/-! The statements about the two word formats. -/

/-- Settles O3: `decode_of_encode` where there is an encoding, `mem_internal_of_encode_eq_none` where there is none. -/
theorem decodeReadsBackEveryEncoding : Obligations.DecodeReadsBackEveryEncoding := by
  unfold Obligations.DecodeReadsBackEveryEncoding
  intro i hwf
  cases henc : encode i with
  | none => exact .inr ⟨rfl, mem_internal_of_encode_eq_none henc⟩
  | some placed =>
    obtain ⟨p, w⟩ := placed
    exact .inl ⟨p, w, rfl, decode_of_encode hwf henc⟩

/-- Settles O1: RSV plays no part, by `decode_commandPort_append`; then the equation of each OP code. -/
theorem commandWordsDecodeByOpMap : Obligations.CommandWordsDecodeByOpMap := by
  unfold Obligations.CommandWordsDecodeByOpMap
  intro chn rsv imm
  simp only [decode_commandPort_append]
  simp

/-- Settles O2: the tests of the edge decoder, read on the fields the word was written with. -/
theorem edgeWordsDecodeByActField : Obligations.EdgeWordsDecodeByActField := by
  unfold Obligations.EdgeWordsDecodeByActField
  intro high act ch dt
  simp only [decode, decodeEdge, edgeHighField_append, chField_append, actField_append, dtField_append, beq_iff_eq]

end Sys2Proof
end

section
/-! What a command word answers: the reserved and the write commands nothing, a read with a valid index a word other
than 0xFFFFFFFF (30_encoding.md R82, R87, R88, R93). -/

namespace Sys2Proof.Machine

/-! The commands that answer nothing. -/

/-- The operation answers a next state from every state, and puts nothing on the response port. -/
def Unanswered (i : Instr) : Prop := ∀ s : State, ∃ t, exec i s = .next t ∧ t.resp = s.resp

theorem writeChannel_unanswered (ch : BitVec 4) (f : Chan → Engine → Engine) (s : State) :
    ∃ t, writeChannel ch f s = .next t ∧ t.resp = s.resp := by
  rcases writeChannel_cases ch f s with ⟨c, _, hwrite⟩ | ⟨_, hdrop⟩
  · exact ⟨_, hwrite, rfl⟩
  · exact ⟨s, hdrop, rfl⟩

theorem unanswered_hold (ch : BitVec 4) : Unanswered (.hold ch) := fun s => by
  change ∃ t, execHold ch s = .next t ∧ t.resp = s.resp
  unfold execHold
  split
  · exact writeChannel_unanswered ch freezeChannel s
  · exact writeChannel_unanswered ch jumpChannel s

theorem unanswered_start : Unanswered .start := fun s => by
  change ∃ t, execStart s = .next t ∧ t.resp = s.resp
  unfold execStart
  split
  · exact ⟨s, rfl, rfl⟩
  · exact ⟨_, rfl, rfl⟩

/-- A word with bit 31 clear has OP 0x0 to 0x7 (30_encoding.md R81). -/
theorem opField_lt_of_bit31_clear {w : Word} (h : w.getLsbD 31 = false) : (opField w).toNat < 8 := by
  have hmsb : (opField w).getLsbD 3 = false := by simpa [opField] using h
  have hsmall : ∀ op : BitVec 4, op.getLsbD 3 = false → op.toNat < 8 := by decide
  exact hsmall _ hmsb

/-- No word with OP 0x0 to 0x7 or 0xF answers: these are the writes and the reserved codes (30_encoding.md R82). -/
theorem decodeCommand_unanswered {w : Word} (h : (opField w).toNat < 8 ∨ opField w = 0xF#4) :
    Unanswered (decodeCommand w) := by
  rw [decodeCommand_eq_commandWord]
  generalize opField w = op at h ⊢
  generalize chnField w = chn, immField w = imm
  have hop : op ∈ [0x0#4, 0x1#4, 0x2#4, 0x3#4, 0x4#4, 0x5#4, 0x6#4, 0x7#4, 0xF#4] := by
    revert op
    decide
  simp only [List.mem_cons, List.not_mem_nil, or_false] at hop
  rcases hop with rfl | rfl | rfl | rfl | rfl | rfl | rfl | rfl | rfl <;>
    simp only [decodeCommand_reserved0, decodeCommand_setw, decodeCommand_sets, decodeCommand_sett, decodeCommand_go,
      decodeCommand_hold, decodeCommand_start, decodeCommand_reserved7, decodeCommand_reservedF]
  · exact fun s => ⟨s, rfl, rfl⟩
  · exact fun s => writeChannel_unanswered chn _ s
  · exact fun s => writeChannel_unanswered chn _ s
  · exact fun s => ⟨_, rfl, rfl⟩
  · exact fun s => ⟨_, rfl, rfl⟩
  · exact unanswered_hold chn
  · exact unanswered_start
  · exact fun s => ⟨s, rfl, rfl⟩
  · exact fun s => ⟨s, rfl, rfl⟩

/-- A command word with a reserved code is dropped (30_encoding.md R87). -/
theorem exec_decodeCommand_reserved {w : Word}
    (h : opField w = 0x0#4 ∨ opField w = 0x7#4 ∨ opField w = 0xF#4) (s : State) :
    exec (decodeCommand w) s = .next s := by
  rw [decodeCommand_eq_commandWord]
  rcases h with hop | hop | hop
  · rw [hop, decodeCommand_reserved0]; rfl
  · rw [hop, decodeCommand_reserved7]; rfl
  · rw [hop, decodeCommand_reservedF]; rfl

/-- Settles O11: the step runs the decoded word on an empty port, and the word is `Unanswered`. -/
theorem reservedWordsDroppedWritesUnanswered : Obligations.ReservedWordsDroppedWritesUnanswered := by
  unfold Obligations.ReservedWordsDroppedWritesUnanswered
  intro s
  refine ⟨rfl, rfl, rfl, fun w rest hscript hwrite => ?_⟩
  have hstep := step_of_script hscript (turnInstr_command w s.eng.en)
  obtain ⟨t, hexec, hresp⟩ := decodeCommand_unanswered (hwrite.imp_left opField_lt_of_bit31_clear)
    { s with script := rest, resp := none }
  refine ⟨t, hstep.trans hexec, hresp, fun hreserved => ?_⟩
  exact Host.Outcome.next.inj (hexec.symm.trans (exec_decodeCommand_reserved hreserved _))

/-! The reads. -/

/-- A word below 2^32 - 1 is not the answer to an invalid index (30_encoding.md R88 b). -/
theorem ne_allOnes_of_lt {v : Word} (h : v.toNat < 0xFFFFFFFF) : v ≠ 0xFFFFFFFF#32 := by
  rintro rfl
  exact absurd h (by decide)

/-- A read with a valid index answers the value of some channel. -/
theorem readChannel_answers_of_lt {ch : BitVec 4} {f : Chan → Word} {s t : State} (hch : ch.toNat < 12)
    (h : readChannel ch f s = .next t) : ∃ c : Chan, t.resp = some (f c) := by
  rcases readChannel_cases ch f s with ⟨c, _, hread⟩ | ⟨hinvalid, _⟩
  · obtain rfl := Host.Outcome.next.inj (hread.symm.trans h)
    exact ⟨c, rfl⟩
  · omega

/-- A read of values below 2^32 - 1 with a valid index does not answer 0xFFFFFFFF. -/
theorem readChannel_ne_allOnes {ch : BitVec 4} {f : Chan → Word} {s t : State} (hch : ch.toNat < 12)
    (hf : ∀ c, (f c).toNat < 0xFFFFFFFF) (h : readChannel ch f s = .next t) : t.resp ≠ some 0xFFFFFFFF#32 := by
  obtain ⟨c, hresp⟩ := readChannel_answers_of_lt hch h
  rw [hresp, ne_eq, Option.some.injEq]
  exact ne_allOnes_of_lt (hf c)

theorem statusNumber_le (st : Status) : (statusNumber st).toNat ≤ 2 := by
  cases st <;> decide

/-- RDEDGE with a valid index answers the word of some entry (45_host_interface.md R192). -/
theorem execRdedge_answers_of_lt {j : U16} {s t : State} (hj : j.toNat < 24) (h : execRdedge j s = .next t) :
    ∃ i : EdgeIdx, t.resp = some (edgeWord s.eng.edge[i]) := by
  unfold execRdedge at h
  rw [(edgeIdx?_eq_some_iff j ⟨j.toNat, hj⟩).mpr rfl] at h
  obtain rfl := Host.Outcome.next.inj h
  exact ⟨⟨j.toNat, hj⟩, rfl⟩

/-- Settles O17: a current width is at most 0xFFFF0000 by the clause `widest` of the invariant; a target has 16 bits, a
status code is at most 2 and an edge word has 21 bits, in every state. -/
theorem validReadsNeverAnswerAllOnes : Obligations.ValidReadsNeverAnswerAllOnes := by
  unfold Obligations.ValidReadsNeverAnswerAllOnes
  intro s t hinv
  refine ⟨fun ch hch hread => ?_, fun j hj hread => ?_⟩
  · rcases hread with hcur | htgt | hstat
    · exact readChannel_ne_allOnes hch (fun c => by have := hinv.widest c; omega) hcur
    · refine readChannel_ne_allOnes hch (fun c => ?_) htgt
      have := s.eng.tgt[c].isLt
      rw [BitVec.toNat_setWidth_of_le (by decide)]
      omega
    · refine readChannel_ne_allOnes hch (fun c => ?_) hstat
      have := statusNumber_le (channelStatus s.eng c)
      omega
  · obtain ⟨i, hresp⟩ := execRdedge_answers_of_lt hj hread
    have := s.eng.edge[i].isLt
    rw [hresp, ne_eq, Option.some.injEq]
    exact ne_allOnes_of_lt (by rw [edgeWord_toNat]; omega)

end Sys2Proof.Machine
end

section
/-! The sequencer (40_service_loop.md R100 to R104): what FRAME, its three parts, PROFILE and SERVICE answer, and where
the internal operations and the edge words stop. -/

namespace Sys2Proof.Machine

/-- Writing back the engine that stands there changes nothing. -/
@[simp] theorem withEngine_eng_self (s : State) : s.withEngine s.eng = s := rfl

/-! The parts of FRAME, on either side of the test CURSOR = 24 (40_service_loop.md R101, 60_exceptions.md R202). -/

theorem whenTableDone_of_drained (f : Engine → Engine) {s : State} (h : s.eng.cursor = 24) :
    whenTableDone f s = .next (s.withEngine (f s.eng)) :=
  ((whenTableDone_cases f s).resolve_right fun inUse => inUse.left h).right

theorem whenTableDone_of_inUse (f : Engine → Engine) {s : State} (h : s.eng.cursor ≠ 24) :
    whenTableDone f s = .refused .tableInUse :=
  ((whenTableDone_cases f s).resolve_left fun drained => h drained.left).right

theorem exec_accum (s : State) : exec .accum s = whenTableDone accum s := rfl

theorem exec_sched (s : State) : exec .sched s = whenTableDone (sched s.cfg) s := rfl

theorem exec_reload (s : State) : exec .reload s = whenTableDone reload s := rfl

theorem exec_frame (s : State) : exec .frame s = whenTableDone (frame s.cfg) s := rfl

/-! The two tests of SERVICE (40_service_loop.md R100). -/

theorem commitIfReady_of_ready (p : Config.Params) {e : Engine} (h : e.ready = true) :
    commitIfReady p e = profile p.deltaRound e := if_pos h

theorem commitIfReady_of_not_ready (p : Config.Params) {e : Engine} (h : e.ready = false) : commitIfReady p e = e := by
  simp [commitIfReady, h]

/-- PROFILE is the first test of SERVICE, READY = 0 included: there both change nothing (41_profile.md R110). -/
theorem exec_profile (s : State) : exec .profile s = .next (s.withEngine (commitIfReady s.cfg s.eng)) := by
  change execProfile s = _
  rcases execProfile_cases s with ⟨hready, hrun⟩ | ⟨hidle, hrun⟩
  · rw [hrun, commitIfReady_of_ready s.cfg hready]
  · rw [hrun, commitIfReady_of_not_ready s.cfg hidle, withEngine_eng_self]

theorem frameIfDone_of_drained (p : Config.Params) {e : Engine} (h : e.cursor = 24) : frameIfDone p e = frame p e :=
  ((frameIfDone_cases p e).resolve_right fun inUse => inUse.left h).right

theorem frameIfDone_of_inUse (p : Config.Params) {e : Engine} (h : e.cursor ≠ 24) : frameIfDone p e = e :=
  ((frameIfDone_cases p e).resolve_left fun drained => h drained.left).right

/-- With CURSOR = 24 FRAME is the second test of SERVICE. -/
theorem exec_frame_of_drained {s : State} (h : s.eng.cursor = 24) :
    exec .frame s = .next (s.withEngine (frameIfDone s.cfg s.eng)) := by
  rw [exec_frame, whenTableDone_of_drained _ h, frameIfDone_of_drained s.cfg h]

theorem exec_service_of_enabled {s : State} (h : s.eng.en = true) :
    exec .service s = .next (s.withEngine (frameIfDone s.cfg (commitIfReady s.cfg s.eng))) := by
  rcases execService_cases s with ⟨_, hrun⟩ | ⟨hdisabled, _⟩
  · exact hrun
  · cases h.symm.trans hdisabled

/-! The stops outside the triggers (assumptions 8, 9 and 10). -/

theorem exec_service_of_disabled {s : State} (h : s.eng.en = false) : exec .service s = .refused .engineDisabled := by
  rcases execService_cases s with ⟨henabled, _⟩ | ⟨_, hstop⟩
  · cases h.symm.trans henabled
  · exact hstop

theorem exec_tick_of_disabled {s : State} (h : s.eng.en = false) : exec .tick s = .refused .engineDisabled := by
  rcases execTick_cases s with ⟨henabled, _⟩ | ⟨_, hstop⟩
  · cases h.symm.trans henabled
  · exact hstop

theorem exec_dispatch_of_no_interrupt {s : State} (h : ¬(s.eng.ifl = true ∧ s.eng.ie = true)) :
    exec .dispatch s = .refused .noInterrupt := by
  rcases dispatchIfPending_cases s with ⟨hifl, hie, _, _⟩ | ⟨_, _, hstop⟩
  · exact absurd ⟨hifl, hie⟩ h
  · exact hstop

section
variable (level : Bool) {ch : BitVec 4} (dt : U16)

theorem exec_eset (ch : BitVec 4) (s : State) : exec (.eset ch dt) s = runEdgeWord true ch dt s := rfl

theorem exec_eclr (ch : BitVec 4) (s : State) : exec (.eclr ch dt) s = runEdgeWord false ch dt s := rfl

/-- An edge word of a channel 0 to 11 is refused with CURSOR = 24 (46_arithmetic_control_access.md R265). -/
theorem runEdgeWord_of_drained {s : State} (hch : ch.toNat < 12) (h : s.eng.cursor = 24) :
    runEdgeWord level ch dt s = .refused .noEdgeAtCursor := by
  rcases runEdgeWord_cases level ch dt s with ⟨_, _, hinUse, _⟩ | ⟨_, _, hstop⟩ | ⟨hstuck, _⟩
  · exact absurd h hinUse
  · exact hstop
  · omega

/-- An edge word with CH 12 to 15 is stuck, wherever the cursor is (93_implementation_defined.md U7). -/
theorem runEdgeWord_of_no_channel (s : State) (hch : 12 ≤ ch.toNat) :
    runEdgeWord level ch dt s = .fault .stuckEdgeWord := by
  rcases runEdgeWord_cases level ch dt s with ⟨c, hc, _, _⟩ | ⟨hvalid, _, _⟩ | ⟨_, hstop⟩
  · omega
  · omega
  · exact hstop

end

/-! The statements about the sequencer and the stops. -/

/-- Settles O34: the part of FRAME that is RELOAD, with the table drained. -/
theorem reloadOnlyResetsCursor : Obligations.ReloadOnlyResetsCursor := by
  unfold Obligations.ReloadOnlyResetsCursor
  intro s hdrained
  exact (exec_reload s).trans (whenTableDone_of_drained reload hdrained)

/-- Settles O35: ACCUM and SCHED leave CURSOR at 24, so each part finds the table drained, and FRAME is their
composition. -/
theorem frameIsAccumSchedReload : Obligations.FrameIsAccumSchedReload := by
  unfold Obligations.FrameIsAccumSchedReload
  intro s hdrained
  have haccum : (s.withEngine (accum s.eng)).eng.cursor = 24 := (accum_cursor s.eng).trans hdrained
  have hsched : (s.withEngine (sched s.cfg (accum s.eng))).eng.cursor = 24 :=
    (sched_cursor s.cfg (accum s.eng)).trans haccum
  exact ⟨s.withEngine (accum s.eng), s.withEngine (sched s.cfg (accum s.eng)), s.withEngine (frame s.cfg s.eng),
    (exec_accum s).trans (whenTableDone_of_drained accum hdrained),
    (exec_sched _).trans (whenTableDone_of_drained (sched s.cfg) haccum),
    (exec_reload _).trans (whenTableDone_of_drained reload hsched),
    (exec_frame s).trans (whenTableDone_of_drained (frame s.cfg) hdrained)⟩

/-- Settles O36: PROFILE and FRAME are the two tests of SERVICE (`exec_profile`, `exec_frame_of_drained`). -/
theorem serviceCommitsThenBuildsFrame : Obligations.ServiceCommitsThenBuildsFrame := by
  unfold Obligations.ServiceCommitsThenBuildsFrame
  intro s henabled
  refine ⟨s.withEngine (commitIfReady s.cfg s.eng), s.withEngine (frameIfDone s.cfg (commitIfReady s.cfg s.eng)),
    ?commit, ?frame, exec_service_of_enabled henabled⟩
  case commit =>
    split
    case isTrue => exact exec_profile s
    case isFalse hidle =>
      rw [commitIfReady_of_not_ready s.cfg (Bool.eq_false_of_not_eq_true hidle), withEngine_eng_self]
  case frame =>
    have hcursor := commitIfReady_cursor s.cfg s.eng
    split
    case isTrue hdrained => exact exec_frame_of_drained (hcursor.trans hdrained)
    case isFalse hinUse => rw [frameIfDone_of_inUse s.cfg (hcursor ▸ hinUse)]

/-- Settles O45: one stop lemma per trigger. -/
theorem operationsOutsideTheirTriggersStop : Obligations.OperationsOutsideTheirTriggersStop := by
  unfold Obligations.OperationsOutsideTheirTriggersStop
  intro s
  refine ⟨fun hdisabled => ?disabled, fun hinUse => ?tableInUse, exec_dispatch_of_no_interrupt,
    fun ch dt hch hdrained => ?noEdge, fun ch dt hch => ?stuck⟩
  case disabled => exact ⟨exec_service_of_disabled hdisabled, exec_tick_of_disabled hdisabled⟩
  case tableInUse =>
    rw [exec_frame, exec_accum, exec_sched, exec_reload]
    simp only [whenTableDone_of_inUse _ hinUse, and_self]
  case noEdge =>
    rw [exec_eset, exec_eclr]
    exact ⟨runEdgeWord_of_drained true dt hch hdrained, runEdgeWord_of_drained false dt hch hdrained⟩
  case stuck =>
    rw [exec_eset, exec_eclr]
    exact ⟨runEdgeWord_of_no_channel true dt s hch, runEdgeWord_of_no_channel false dt s hch⟩

end Sys2Proof.Machine
end

section
/-! The duration of a commit (41_profile.md R113 to R115): which channels vote, what a vote is, and the maximum of the
votes and MOVE_T. -/

namespace Sys2Proof.Machine

variable {e : Engine} {dur : Nat} {c : Chan}

/-! The conditions on a channel (41_profile.md R115, R117, R119). -/

theorem sentinelInvolved_iff : sentinelInvolved e c = true ↔
    e.pw[c].toNat = 0 ∨ e.pw[c].toNat = 0xFFFF ∨ us e.cur[c] = 0 ∨ us e.cur[c] = 0xFFFF := by
  simp only [sentinelInvolved, Bool.or_eq_true, isSent_iff, or_assoc]

theorem snaps_iff : snaps e dur c = true ↔ sentinelInvolved e c = true ∨ dur = 0 := by
  simp only [snaps, Bool.or_eq_true, beq_iff_eq]

theorem votes_iff : votes e c = true ↔ e.pc[c] = true ∧ ¬sentinelInvolved e c = true := by
  simp only [votes, Bool.and_eq_true, Bool.not_eq_true, Bool.not_eq_true']

/-- Whether a channel votes, on its registers (41_profile.md R115). -/
theorem votes_iff_widths : votes e c = true ↔ e.pc[c] = true ∧ e.pw[c].toNat ≠ 0 ∧ e.pw[c].toNat ≠ 0xFFFF ∧
    us e.cur[c] ≠ 0 ∧ us e.cur[c] ≠ 0xFFFF := by
  rw [votes_iff, sentinelInvolved_iff]
  simp only [not_or, ne_eq]

theorem timeProfiled_iff_commanded : timeProfiled e dur c = true ↔ e.pc[c] = true ∧ snaps e dur c = false := by
  simp only [timeProfiled, Bool.and_eq_true, Bool.not_eq_true']

/-- The channels of the delta branch are those that vote, unless the duration is 0. -/
theorem timeProfiled_iff : timeProfiled e dur c = true ↔ votes e c = true ∧ dur ≠ 0 := by
  rw [timeProfiled_iff_commanded, votes_iff, ← Bool.not_eq_true, snaps_iff, not_or, and_assoc]

/-- The three ways through pass 2 of PROFILE (41_profile.md R111). -/
theorem channel_cases (e : Engine) (dur : Nat) (c : Chan) :
    e.pc[c] = false ∨ (e.pc[c] = true ∧ snaps e dur c = true) ∨ timeProfiled e dur c = true := by
  rw [timeProfiled_iff_commanded]
  cases e.pc[c] <;> cases snaps e dur c <;> simp

/-! One vote (41_profile.md R113, R114). -/

theorem voteSpeed_eq (e : Engine) (c : Chan) :
    voteSpeed e c = if e.ps[c].toNat = 0 then 1 else e.ps[c].toNat := by
  simp only [voteSpeed, BitVec.toNat_eq, BitVec.ofNat_eq_ofNat, BitVec.toNat_ofNat, Nat.zero_mod]

theorem voteSpeed_pos (e : Engine) (c : Chan) : 0 < voteSpeed e c := by
  rw [voteSpeed_eq]
  split <;> omega

theorem voteSpeed_le (e : Engine) (c : Chan) : voteSpeed e c ≤ 0xFFFF := by
  have := e.ps[c].isLt
  rw [voteSpeed_eq]
  split <;> omega

theorem vote_eq (e : Engine) (c : Chan) :
    vote e c = min 0xFFFF (1000 * absDiff e.pw[c].toNat (us e.cur[c]) / voteSpeed e c) := by
  rw [vote, divTrunc_natCast_toNat, clipU16, min_comm]

theorem vote_le_u16 (e : Engine) (c : Chan) : vote e c ≤ 0xFFFF := clipU16_le _

/-! The maximum (41_profile.md R115). -/

/-- Pass 1 over any list of channels: the upper bounds of its result. -/
theorem foldl_votes_le_iff (e : Engine) (n : Nat) (channels : List Chan) (start : Nat) :
    channels.foldl (fun dur c => if votes e c then max dur (vote e c) else dur) start ≤ n ↔
      start ≤ n ∧ ∀ c ∈ channels, votes e c = true → vote e c ≤ n := by
  induction channels generalizing start with
  | nil => simp
  | cons c rest ih =>
    rw [List.foldl_cons, ih, List.forall_mem_cons]
    by_cases hc : votes e c = true <;> simp [hc, and_assoc]

/-- The duration is the least upper bound of MOVE_T and the votes. -/
theorem moveDuration_le_iff (e : Engine) (n : Nat) :
    moveDuration e ≤ n ↔ e.moveT.toNat ≤ n ∧ ∀ c, votes e c = true → vote e c ≤ n := by
  rw [moveDuration, foldl_votes_le_iff]
  simp only [List.mem_finRange, true_implies]

theorem moveT_le_moveDuration (e : Engine) : e.moveT.toNat ≤ moveDuration e :=
  ((moveDuration_le_iff e _).mp le_rfl).left

theorem vote_le_moveDuration (h : votes e c = true) : vote e c ≤ moveDuration e :=
  ((moveDuration_le_iff e _).mp le_rfl).right c h

theorem moveDuration_le_u16 (e : Engine) : moveDuration e ≤ 0xFFFF :=
  (moveDuration_le_iff e _).mpr ⟨Nat.le_of_lt_succ e.moveT.isLt, fun c _ => vote_le_u16 e c⟩

/-- The least upper bound is reached: if it were not, the number below it would be an upper bound too. -/
theorem moveDuration_attained (e : Engine) :
    moveDuration e = e.moveT.toNat ∨ ∃ c, votes e c = true ∧ moveDuration e = vote e c := by
  by_contra hnone
  obtain ⟨hmoveT, hvotes⟩ := not_or.mp hnone
  have hlt : e.moveT.toNat < moveDuration e := lt_of_le_of_ne (moveT_le_moveDuration e) (Ne.symm hmoveT)
  have hbelow : moveDuration e ≤ moveDuration e - 1 := by
    refine (moveDuration_le_iff e _).mpr ⟨by omega, fun c hc => ?_⟩
    have hle := vote_le_moveDuration hc
    have hne : moveDuration e ≠ vote e c := fun heq => hvotes ⟨c, hc, heq⟩
    omega
  omega

end Sys2Proof.Machine
end

section
/-! What PROFILE leaves in the registers of one channel, and the delta it stores (41_profile.md R111, R116 to R126). -/

namespace Sys2Proof.Machine

variable {r : Config.DeltaRound} {e : Engine} {dur : Nat} {c : Chan}

/-- With READY = 1 PROFILE commits the pending file for the duration of pass 1 (41_profile.md R111). -/
theorem exec_profile_of_ready {s : State} (h : s.eng.ready = true) :
    exec .profile s = .next (s.withEngine (commitPending s.cfg.deltaRound (moveDuration s.eng) s.eng)) := by
  rw [exec_profile, commitIfReady_of_ready s.cfg h, profile]

/-! The registers after pass 2, one equation per register and one lemma per way through the pass. -/

theorem commitPending_tgt_get (r : Config.DeltaRound) (dur : Nat) (e : Engine) (c : Chan) :
    (commitPending r dur e).tgt[c] = if e.pc[c] then e.pw[c] else e.tgt[c] := by
  simp [commitPending]

theorem commitPending_cur_get (r : Config.DeltaRound) (dur : Nat) (e : Engine) (c : Chan) :
    (commitPending r dur e).cur[c] = if e.pc[c] && snaps e dur c then q16Word e.pw[c] else e.cur[c] := by
  simp [commitPending]

theorem commitPending_dpf_get (r : Config.DeltaRound) (dur : Nat) (e : Engine) (c : Chan) :
    (commitPending r dur e).dpf[c] =
      if e.pc[c] then if snaps e dur c then 0 else BitVec.ofInt 32 (satI32 (frameDelta r e dur c)) else e.dpf[c] := by
  simp [commitPending]

theorem commitPending_remain (r : Config.DeltaRound) (dur : Nat) (e : Engine) :
    (commitPending r dur e).remain =
      if (List.finRange 12).any (timeProfiled e dur) then BitVec.ofNat 16 dur else e.remain := rfl

/-- A channel that is not commanded is left alone (41_profile.md R120). -/
theorem commitPending_of_uncommanded (r : Config.DeltaRound) (dur : Nat) (h : e.pc[c] = false) :
    (commitPending r dur e).tgt[c] = e.tgt[c] ∧ (commitPending r dur e).cur[c] = e.cur[c] ∧
      (commitPending r dur e).dpf[c] = e.dpf[c] := by
  simp only [commitPending_tgt_get, commitPending_cur_get, commitPending_dpf_get, h, Bool.false_and,
    Bool.false_eq_true, if_false, and_self]

/-- A commanded channel that snaps is at its target with no delta (41_profile.md R117). -/
theorem commitPending_of_snaps (r : Config.DeltaRound) (hpc : e.pc[c] = true) (hsnaps : snaps e dur c = true) :
    (commitPending r dur e).tgt[c] = e.pw[c] ∧ (commitPending r dur e).cur[c] = q16Word e.pw[c] ∧
      (commitPending r dur e).dpf[c] = 0 := by
  simp only [commitPending_tgt_get, commitPending_cur_get, commitPending_dpf_get, hpc, hsnaps, Bool.and_self,
    if_true, and_self]

/-- A channel of the delta branch keeps its width and takes a target and a delta (41_profile.md R116). -/
theorem commitPending_of_timeProfiled (r : Config.DeltaRound) (h : timeProfiled e dur c = true) :
    (commitPending r dur e).tgt[c] = e.pw[c] ∧ (commitPending r dur e).cur[c] = e.cur[c] ∧
      (commitPending r dur e).dpf[c] = BitVec.ofInt 32 (satI32 (frameDelta r e dur c)) := by
  obtain ⟨hpc, hmoves⟩ := timeProfiled_iff_commanded.mp h
  simp only [commitPending_tgt_get, commitPending_cur_get, commitPending_dpf_get, hpc, hmoves, Bool.and_false,
    Bool.false_eq_true, if_false, if_true, and_self]

/-! The delta (41_profile.md R116, R126). -/

/-- The dividend of the delta: the distance to the commanded width, times FRAME_PERIOD_MS (41_profile.md R116). -/
def deltaDividend (e : Engine) (c : Chan) : Int := 20 * ((e.pw[c].toNat : Int) * 65536 - e.cur[c].toNat)

theorem frameDelta_eq (r : Config.DeltaRound) (e : Engine) (dur : Nat) (c : Chan) :
    frameDelta r e dur c = divDelta r (deltaDividend e c) dur := by
  simp only [frameDelta, deltaDividend, q16, Config.framePeriodMs, Nat.cast_mul, Nat.cast_ofNat]

theorem natAbs_divDelta_lt (r : Config.DeltaRound) (n : Int) {d : Nat} (hd : 0 < d) :
    d * (divDelta r n d).natAbs < n.natAbs + d := by
  cases r with
  | away => exact (divAway_bounds n d hd).right
  | trunc => exact (divTrunc_bounds n d hd).left.trans_lt (by omega)

/-- A bound on the vote bounds the distance in whole µs, at the greatest speed and under the clip of the vote alike. -/
theorem distance_lt_of_vote_le (h : vote e c ≤ dur) :
    1000 * absDiff e.pw[c].toNat (us e.cur[c]) < (dur + 1) * 0xFFFF := by
  rw [vote_eq, min_le_iff] at h
  rcases h with hclipped | hquotient
  · have hpw := e.pw[c].isLt
    have hcur := us_lt e.cur[c]
    unfold absDiff
    omega
  · calc 1000 * absDiff e.pw[c].toNat (us e.cur[c])
        < (dur + 1) * voteSpeed e c :=
          (Nat.div_lt_iff_lt_mul (voteSpeed_pos e c)).mp (Nat.lt_succ_of_le hquotient)
      _ ≤ (dur + 1) * 0xFFFF := Nat.mul_le_mul_left _ (voteSpeed_le e c)

/-- A channel that votes has a duration long enough for its distance, so its quotient is small (41_profile.md R126). -/
theorem deltaDividend_lt (hvotes : votes e c = true) (hdur : moveDuration e ≠ 0) :
    (deltaDividend e c).natAbs + moveDuration e ≤ moveDuration e * 2 ^ 31 := by
  have hwhole := distance_lt_of_vote_le (vote_le_moveDuration hvotes)
  unfold absDiff us at hwhole
  unfold deltaDividend
  omega

/-- No clip changes the delta of a time-profiled channel (41_profile.md R126). -/
theorem toInt_delta_of_timeProfiled (r : Config.DeltaRound) (h : timeProfiled e (moveDuration e) c = true) :
    (commitPending r (moveDuration e) e).dpf[c].toInt = divDelta r (deltaDividend e c) (moveDuration e) := by
  obtain ⟨_, _, hdpf⟩ := commitPending_of_timeProfiled r h
  obtain ⟨hvotes, hdur⟩ := timeProfiled_iff.mp h
  have hfits : (divDelta r (deltaDividend e c) (moveDuration e)).natAbs < 2 ^ 31 :=
    Nat.lt_of_mul_lt_mul_left
      ((natAbs_divDelta_lt r _ (Nat.pos_of_ne_zero hdur)).trans_le (deltaDividend_lt hvotes hdur))
  rw [hdpf, toInt_ofInt_satI32, frameDelta_eq]
  exact satI32_of_fits _ (by omega) (by omega)

/-! A channel that stands at its commanded width. -/

theorem vote_of_atTarget (h : e.cur[c] = q16Word e.pw[c]) : vote e c = 0 := by
  simp only [vote_eq, absDiff, h, us_q16Word, sub_self, Int.natAbs_zero, mul_zero, Nat.zero_div, Nat.min_zero]

theorem frameDelta_of_atTarget (r : Config.DeltaRound) (dur : Nat) (h : e.cur[c] = q16Word e.pw[c]) :
    frameDelta r e dur c = 0 := by
  have hzero : deltaDividend e c = 0 := by
    simp only [deltaDividend, h, q16Word_toNat, q16, Nat.cast_mul, Nat.cast_ofNat, sub_self, mul_zero]
  rw [frameDelta_eq, hzero]
  exact le_antisymm (divDelta_nonpos r 0 dur le_rfl) (divDelta_nonneg r 0 dur le_rfl)

/-- A commanded channel at its commanded width stays there with no delta, whichever branch it takes. -/
theorem commitPending_of_atTarget (r : Config.DeltaRound) (dur : Nat) (hpc : e.pc[c] = true)
    (h : e.cur[c] = q16Word e.pw[c]) :
    (commitPending r dur e).tgt[c] = e.pw[c] ∧ (commitPending r dur e).cur[c] = q16Word e.pw[c] ∧
      (commitPending r dur e).dpf[c] = 0 := by
  rcases channel_cases e dur c with hidle | ⟨_, hsnaps⟩ | hmoves
  · cases hpc.symm.trans hidle
  · exact commitPending_of_snaps r hpc hsnaps
  · obtain ⟨htgt, hcur, hdpf⟩ := commitPending_of_timeProfiled r hmoves
    refine ⟨htgt, hcur.trans h, ?_⟩
    rw [hdpf, frameDelta_of_atTarget r dur h]
    rfl

/-! REMAIN (41_profile.md R119). -/

theorem exists_timeProfiled_iff :
    (List.finRange 12).any (timeProfiled e dur) = true ↔ ∃ c, timeProfiled e dur c = true := by
  simp only [List.any_eq_true, List.mem_finRange, true_and]

theorem commitPending_remain_of_timeProfiled (r : Config.DeltaRound) (h : ∃ c, timeProfiled e dur c = true)
    (hdur : dur ≤ 0xFFFF) : (commitPending r dur e).remain.toNat = dur := by
  rw [commitPending_remain, if_pos (exists_timeProfiled_iff.mpr h), BitVec.toNat_ofNat]
  omega

theorem commitPending_remain_of_none (r : Config.DeltaRound) (h : ¬∃ c, timeProfiled e dur c = true) :
    (commitPending r dur e).remain = e.remain := by
  rw [commitPending_remain, if_neg (exists_timeProfiled_iff.not.mpr h)]

end Sys2Proof.Machine
end

section
/-! The same command given again with no frame between (41_profile.md R123). -/

namespace Sys2Proof.Machine

variable {e : Engine} {c : Chan}

/-- The state in which the command of `e` is pending once more after its own commit (41_profile.md R123). -/
def commandedAgain (r : Config.DeltaRound) (e : Engine) : Engine :=
  { commitPending r (moveDuration e) e with ready := true, pc := e.pc, pw := e.pw, ps := e.ps }

/-! What the second commit finds on each of the three ways through the first. -/

theorem commandedAgain_of_snaps (r : Config.DeltaRound) (hpc : e.pc[c] = true)
    (hsnaps : snaps e (moveDuration e) c = true) :
    (commandedAgain r e).cur[c] = q16Word (commandedAgain r e).pw[c] :=
  (commitPending_of_snaps r hpc hsnaps).right.left

theorem commandedAgain_of_timeProfiled (r : Config.DeltaRound) (h : timeProfiled e (moveDuration e) c = true) :
    (commandedAgain r e).cur[c] = e.cur[c] :=
  (commitPending_of_timeProfiled r h).right.left

theorem sentinelInvolved_commandedAgain (r : Config.DeltaRound) (h : timeProfiled e (moveDuration e) c = true) :
    sentinelInvolved (commandedAgain r e) c = sentinelInvolved e c := by
  rw [sentinelInvolved, commandedAgain_of_timeProfiled r h]
  rfl

theorem votes_commandedAgain (r : Config.DeltaRound) (h : timeProfiled e (moveDuration e) c = true) :
    votes (commandedAgain r e) c = true := by
  rw [votes, sentinelInvolved_commandedAgain r h]
  exact (timeProfiled_iff.mp h).left

theorem vote_commandedAgain (r : Config.DeltaRound) (h : timeProfiled e (moveDuration e) c = true) :
    vote (commandedAgain r e) c = vote e c := by
  rw [vote, commandedAgain_of_timeProfiled r h]
  rfl

theorem frameDelta_commandedAgain (r : Config.DeltaRound) (dur : Nat)
    (h : timeProfiled e (moveDuration e) c = true) :
    frameDelta r (commandedAgain r e) dur c = frameDelta r e dur c := by
  rw [frameDelta, commandedAgain_of_timeProfiled r h]
  rfl

/-- The second commit has the duration of the first: a channel on its way votes as before, and one that snapped votes
0 or not at all. -/
theorem moveDuration_commandedAgain (r : Config.DeltaRound) (e : Engine) :
    moveDuration (commandedAgain r e) = moveDuration e := by
  apply le_antisymm
  · refine (moveDuration_le_iff _ _).mpr ⟨moveT_le_moveDuration e, fun c hvotes => ?_⟩
    rcases channel_cases e (moveDuration e) c with hidle | ⟨hpc, hsnaps⟩ | hmoves
    · cases hidle.symm.trans (votes_iff.mp hvotes).left
    · rw [vote_of_atTarget (commandedAgain_of_snaps r hpc hsnaps)]
      exact Nat.zero_le _
    · rw [vote_commandedAgain r hmoves]
      exact vote_le_moveDuration (timeProfiled_iff.mp hmoves).left
  · refine (moveDuration_le_iff _ _).mpr ⟨moveT_le_moveDuration (commandedAgain r e), fun c hvotes => ?_⟩
    by_cases hdur : moveDuration e = 0
    · have hvote := vote_le_moveDuration hvotes
      omega
    · have hmoves := timeProfiled_iff.mpr ⟨hvotes, hdur⟩
      rw [← vote_commandedAgain r hmoves]
      exact vote_le_moveDuration (votes_commandedAgain r hmoves)

/-- A second commit for the same duration writes what the first left, channel by channel. -/
theorem commitPending_commandedAgain (r : Config.DeltaRound) (e : Engine) (c : Chan) :
    let first := commitPending r (moveDuration e) e
    let second := commitPending r (moveDuration e) (commandedAgain r e)
    second.tgt[c] = first.tgt[c] ∧ second.cur[c] = first.cur[c] ∧ second.dpf[c] = first.dpf[c] := by
  intro first second
  rcases channel_cases e (moveDuration e) c with hidle | ⟨hpc, hsnaps⟩ | hmoves
  · exact commitPending_of_uncommanded (e := commandedAgain r e) r _ hidle
  · obtain ⟨htgt, hcur, hdpf⟩ := commitPending_of_snaps r hpc hsnaps
    obtain ⟨htgt', hcur', hdpf'⟩ := commitPending_of_atTarget (e := commandedAgain r e) r (moveDuration e) hpc
      (commandedAgain_of_snaps r hpc hsnaps)
    exact ⟨htgt'.trans htgt.symm, hcur'.trans hcur.symm, hdpf'.trans hdpf.symm⟩
  · obtain ⟨htgt, _, hdpf⟩ := commitPending_of_timeProfiled r hmoves
    have hagain : timeProfiled (commandedAgain r e) (moveDuration e) c = true :=
      timeProfiled_iff.mpr ⟨votes_commandedAgain r hmoves, (timeProfiled_iff.mp hmoves).right⟩
    obtain ⟨htgt', hcur', hdpf'⟩ := commitPending_of_timeProfiled r hagain
    refine ⟨htgt'.trans htgt.symm, hcur', ?_⟩
    rw [hdpf', hdpf, frameDelta_commandedAgain r _ hmoves]

end Sys2Proof.Machine
end

section
/-! Runs of ACCUM (42_accumulate.md R131 to R136): the distance of a channel to its target shrinks by the size of its
delta in each run, down to 0. -/

namespace Sys2Proof.Machine

variable {e : Engine} {c : Chan}

/-- How far a width is from its target, in Q16.16 µs. -/
def distance (tgt : U16) (cur : U32) : Nat := ((q16 tgt : Int) - cur.toNat).natAbs

theorem distance_eq_zero_iff (tgt : U16) (cur : U32) : distance tgt cur = 0 ↔ cur.toNat = q16 tgt := by
  unfold distance
  omega

/-- One run of ACCUM, on a channel whose delta points at its target (42_accumulate.md R133). -/
theorem ChannelOk.distance_accum {tgt : U16} {cur dpf : U32} (h : ChannelOk tgt cur dpf) :
    distance tgt (accumWidth tgt cur dpf) = distance tgt cur - dpf.toInt.natAbs := by
  obtain ⟨hup, hdown, _, _⟩ := h
  have hsum := accumWidth_toNat tgt cur dpf
  unfold distance
  split_ifs at hsum <;> omega

theorem accum_cur_get (e : Engine) (c : Chan) : (accum e).cur[c] = accumWidth e.tgt[c] e.cur[c] e.dpf[c] := by
  simp

/-- n runs of ACCUM on a channel whose delta points at its target. -/
theorem distance_accum_iterate (h : ChannelOk e.tgt[c] e.cur[c] e.dpf[c]) (n : Nat) :
    distance e.tgt[c] (accum^[n] e).cur[c] = distance e.tgt[c] e.cur[c] - n * e.dpf[c].toInt.natAbs := by
  induction n generalizing e with
  | zero => simp
  | succ n ih =>
    have hnext : ChannelOk (accum e).tgt[c] (accum e).cur[c] (accum e).dpf[c] := by
      rw [accum_tgt, accum_cur_get, accum_dpf]
      exact h.of_accum
    have hrest := ih hnext
    rw [accum_tgt, accum_cur_get, accum_dpf, h.distance_accum] at hrest
    rw [Function.iterate_succ_apply, hrest, Nat.sub_sub, Nat.succ_mul, Nat.add_comm]

theorem execTimes_succ_of_next {i : Instr} {s t : State} (h : exec i s = .next t) (n : Nat) :
    execTimes i (n + 1) s = execTimes i n t := by
  simp only [execTimes, h]

/-- ACCUM keeps CURSOR at 24, so n runs of it all complete (42_accumulate.md R131). -/
theorem execTimes_accum {s : State} (h : s.eng.cursor = 24) (n : Nat) :
    execTimes .accum n s = .next (s.withEngine (accum^[n] s.eng)) := by
  induction n generalizing s with
  | zero => rfl
  | succ n ih =>
    have hrun : exec .accum s = .next (s.withEngine (accum s.eng)) :=
      (exec_accum s).trans (whenTableDone_of_drained accum h)
    rw [execTimes_succ_of_next hrun, ih (s := s.withEngine (accum s.eng)) ((accum_cursor s.eng).trans h)]
    rfl

/-- A channel of the delta branch leaves PROFILE with its delta pointing at its target (10_state.md R24). -/
theorem channelOk_of_timeProfiled {dur : Nat} (r : Config.DeltaRound) (h : timeProfiled e dur c = true) :
    ChannelOk (commitPending r dur e).tgt[c] (commitPending r dur e).cur[c] (commitPending r dur e).dpf[c] := by
  obtain ⟨htgt, hcur, hdpf⟩ := commitPending_of_timeProfiled r h
  obtain ⟨_, _, _, _, hnotWidest⟩ := votes_iff_widths.mp (timeProfiled_iff.mp h).left
  have hlt := us_lt e.cur[c]
  have hwide : e.cur[c].toNat ≤ 0xFFFF0000 := by
    unfold us at hnotWidest hlt
    omega
  rw [htgt, hcur, hdpf]
  exact .of_timeProfiled r (timeProfiled_iff_commanded.mp h).right hwide

/-- With DELTA_ROUND = away the deltas of ceil(duration / 20) frames add up to the distance (41_profile.md R124). -/
theorem distance_le_mul_delta (h : timeProfiled e (moveDuration e) c = true) {n : Nat}
    (hn : (moveDuration e + 19) / 20 ≤ n) :
    distance e.pw[c] e.cur[c] ≤ n * (commitPending .away (moveDuration e) e).dpf[c].toInt.natAbs := by
  have hdur := Nat.pos_of_ne_zero (timeProfiled_iff.mp h).right
  have hquotient := (divAway_bounds (deltaDividend e c) (moveDuration e) hdur).left
  have hdividend : (deltaDividend e c).natAbs = 20 * distance e.pw[c] e.cur[c] := by
    unfold deltaDividend distance q16
    omega
  rw [toInt_delta_of_timeProfiled .away h, divDelta]
  refine Nat.le_of_mul_le_mul_left ?_ (by decide : 0 < 20)
  calc 20 * distance e.pw[c] e.cur[c]
      ≤ moveDuration e * (divAway (deltaDividend e c) (moveDuration e)).natAbs := hdividend ▸ hquotient
    _ ≤ 20 * n * (divAway (deltaDividend e c) (moveDuration e)).natAbs := Nat.mul_le_mul_right _ (by omega)
    _ = 20 * (n * (divAway (deltaDividend e c) (moveDuration e)).natAbs) := Nat.mul_assoc _ _ _

/-- After ceil(duration / 20) frames a channel of the delta branch is at its target (41_profile.md R124). -/
theorem arrives_of_timeProfiled (h : timeProfiled e (moveDuration e) c = true) {n : Nat}
    (hn : (moveDuration e + 19) / 20 ≤ n) :
    (accum^[n] (commitPending .away (moveDuration e) e)).cur[c].toNat = q16 e.pw[c] := by
  obtain ⟨htgt, hcur, _⟩ := commitPending_of_timeProfiled .away h
  have hdistance := distance_accum_iterate (channelOk_of_timeProfiled .away h) n
  rw [htgt, hcur, Nat.sub_eq_zero_of_le (distance_le_mul_delta h hn)] at hdistance
  exact (distance_eq_zero_iff _ _).mp hdistance

end Sys2Proof.Machine
end

section
/-! The statements about PROFILE (41_profile.md). -/

namespace Sys2Proof.Machine

/-- Settles O46: READY = 0 is the second case of `execProfile_cases`. -/
theorem profileWithoutReadyChangesNothing : Obligations.ProfileWithoutReadyChangesNothing := by
  unfold Obligations.ProfileWithoutReadyChangesNothing
  intro s hidle
  rw [exec_profile, commitIfReady_of_not_ready s.cfg hidle, withEngine_eng_self]

/-- Settles O19: the duration is the least upper bound of MOVE_T and the votes, and one of them reaches it. -/
theorem moveDurationIsMaximumOfVotes : Obligations.MoveDurationIsMaximumOfVotes := by
  unfold Obligations.MoveDurationIsMaximumOfVotes
  intro e voting voteOf
  have hvoting : ∀ c, votes e c = true ↔ voting c := fun c => votes_iff_widths
  have hvoteOf : ∀ c, vote e c = voteOf c := fun c => by
    rw [vote_eq, voteSpeed_eq]
    rfl
  simp only [← hvoting, ← hvoteOf]
  exact ⟨moveT_le_moveDuration e, fun c => vote_le_moveDuration, moveDuration_attained e⟩

/-- Settles O20: the frame of `commitPending`, and `commitPending_of_uncommanded`. -/
theorem profileConsumesPendingFile : Obligations.ProfileConsumesPendingFile := by
  unfold Obligations.ProfileConsumesPendingFile
  intro s hready
  refine ⟨_, exec_profile_of_ready hready, rfl, fun c => ⟨?pc, ?ps, commitPending_of_uncommanded _ _⟩⟩
  case pc => simp
  case ps => simp [Config.speedMax]

/-- Settles O21: the two ways a commanded channel takes through pass 2. -/
theorem profileSnapsSentinelsAndZeroDuration : Obligations.ProfileSnapsSentinelsAndZeroDuration := by
  unfold Obligations.ProfileSnapsSentinelsAndZeroDuration
  intro s hready
  refine ⟨_, exec_profile_of_ready hready, fun c hpc => ?_⟩
  have hsnaps : snaps s.eng (moveDuration s.eng) c = true ↔
      s.eng.pw[c].toNat = 0 ∨ s.eng.pw[c].toNat = 0xFFFF ∨ s.eng.cur[c].toNat / 65536 = 0 ∨
        s.eng.cur[c].toNat / 65536 = 0xFFFF ∨ moveDuration s.eng = 0 := by
    rw [snaps_iff, sentinelInvolved_iff]
    simp only [us, or_assoc]
  split
  case isTrue h =>
    obtain ⟨htgt, hcur, hdpf⟩ := commitPending_of_snaps s.cfg.deltaRound hpc (hsnaps.mpr h)
    exact ⟨htgt, (congrArg BitVec.toNat hcur).trans (q16Word_toNat _), hdpf⟩
  case isFalse h =>
    have hmoves := timeProfiled_iff_commanded.mpr ⟨hpc, Bool.eq_false_of_not_eq_true (mt hsnaps.mp h)⟩
    obtain ⟨htgt, hcur, _⟩ := commitPending_of_timeProfiled s.cfg.deltaRound hmoves
    exact ⟨htgt, hcur⟩

/-- Settles O22: the stored delta is the quotient itself, so it has the bounds of the two divisions. -/
theorem profileDeltaIsQuotientRounded : Obligations.ProfileDeltaIsQuotientRounded := by
  unfold Obligations.ProfileDeltaIsQuotientRounded
  intro s c hready hmoves
  refine ⟨_, exec_profile_of_ready hready, ?_⟩
  intro n d dur
  have hd : d = divDelta s.cfg.deltaRound n (moveDuration s.eng) :=
    toInt_delta_of_timeProfiled s.cfg.deltaRound hmoves
  have hdur := Nat.pos_of_ne_zero (timeProfiled_iff.mp hmoves).right
  rw [hd]
  refine ⟨divDelta_nonneg _ n _, divDelta_nonpos _ n _, fun haway => ?away, fun htrunc => ?trunc⟩
  case away =>
    rw [haway]
    have hbounds := divAway_bounds n (moveDuration s.eng) hdur
    zify at hbounds
    exact hbounds
  case trunc =>
    rw [htrunc]
    have hbounds := divTrunc_bounds n (moveDuration s.eng) hdur
    zify at hbounds
    exact hbounds

/-- Settles O23: the condition is that some channel takes the delta branch. -/
theorem profileSetsRemainingTime : Obligations.ProfileSetsRemainingTime := by
  unfold Obligations.ProfileSetsRemainingTime
  intro s hready
  refine ⟨_, exec_profile_of_ready hready, ?_⟩
  have hmoves : ∀ c, timeProfiled s.eng (moveDuration s.eng) c = true ↔
      s.eng.pc[c] = true ∧ s.eng.pw[c].toNat ≠ 0 ∧ s.eng.pw[c].toNat ≠ 0xFFFF ∧
        s.eng.cur[c].toNat / 65536 ≠ 0 ∧ s.eng.cur[c].toNat / 65536 ≠ 0xFFFF ∧ moveDuration s.eng ≠ 0 := by
    intro c
    rw [timeProfiled_iff, votes_iff_widths]
    simp only [us, and_assoc]
  simp only [← hmoves]
  split
  case isTrue h => exact commitPending_remain_of_timeProfiled _ h (moveDuration_le_u16 s.eng)
  case isFalse h => exact commitPending_remain_of_none _ h

/-- Settles O24: the second commit starts from `commandedAgain` and leaves every channel as the first did. -/
theorem repeatedCommandGivesSameSchedule : Obligations.RepeatedCommandGivesSameSchedule := by
  unfold Obligations.RepeatedCommandGivesSameSchedule
  intro s t hready hfirst
  obtain rfl := Host.Outcome.next.inj ((exec_profile_of_ready hready).symm.trans hfirst)
  have hsecond := exec_profile_of_ready (s := s.withEngine (commandedAgain s.cfg.deltaRound s.eng)) rfl
  rw [withEngine_eng, moveDuration_commandedAgain] at hsecond
  have hsame := commitPending_commandedAgain s.cfg.deltaRound s.eng
  simp only [forall_and] at hsame
  obtain ⟨htgt, hcur, hdpf⟩ := hsame
  exact ⟨_, hsecond, Vector.ext fun i hi => htgt ⟨i, hi⟩, Vector.ext fun i hi => hcur ⟨i, hi⟩,
    Vector.ext fun i hi => hdpf ⟨i, hi⟩⟩

/-- Settles O27: every run of ACCUM completes, and `arrives_of_timeProfiled`. -/
theorem profiledChannelArrivesInCeilFrames : Obligations.ProfiledChannelArrivesInCeilFrames := by
  unfold Obligations.ProfiledChannelArrivesInCeilFrames
  intro s c hready hdrained haway hmoves
  have hprofile := exec_profile_of_ready hready
  rw [haway] at hprofile
  refine ⟨_, hprofile, fun n hn => ⟨_, execTimes_accum ?drained n, arrives_of_timeProfiled hmoves hn⟩⟩
  case drained => exact (commitPending_cursor _ _ s.eng).trans hdrained

end Sys2Proof.Machine
end

section
/-! The statements about ACCUM (42_accumulate.md R131 to R137): one run with CURSOR = 24 is `accum` on the engine, and
each channel is `accumWidth` of its own three registers. -/

namespace Sys2Proof.Machine

theorem exec_accum_of_drained {s : State} (h : s.eng.cursor = 24) :
    exec .accum s = .next (s.withEngine (accum s.eng)) :=
  (exec_accum s).trans (whenTableDone_of_drained accum h)

/-- The floor of REMAIN needs no reduction modulo 2^16: the countdown only shrinks it (42_accumulate.md R131). -/
theorem accum_remain_toNat (e : Engine) : (accum e).remain.toNat = e.remain.toNat - 20 := by
  have hfits : e.remain.toNat - 20 < 2 ^ 16 := (Nat.sub_le _ _).trans_lt e.remain.isLt
  rw [accum_remain]
  exact (BitVec.toNat_ofNat _ _).trans (Nat.mod_eq_of_lt hfits)

theorem accum_frameCnt_toNat (e : Engine) : (accum e).frameCnt.toNat = (e.frameCnt.toNat + 1) % 2 ^ 32 := by
  rw [accum_frameCnt]
  exact BitVec.toNat_add _ _

/-- A width whose delta points at its target stays between where it was and the target (42_accumulate.md R137). -/
theorem ChannelOk.between_accum {tgt : U16} {cur dpf : U32} (h : ChannelOk tgt cur dpf) :
    (cur.toNat ≤ (accumWidth tgt cur dpf).toNat ∧ (accumWidth tgt cur dpf).toNat ≤ q16 tgt) ∨
      (q16 tgt ≤ (accumWidth tgt cur dpf).toNat ∧ (accumWidth tgt cur dpf).toNat ≤ cur.toNat) := by
  obtain ⟨hup, hdown, _, _⟩ := h
  have hsum := accumWidth_toNat tgt cur dpf
  rcases lt_trichotomy dpf.toInt 0 with hneg | hzero | hpos
  · have habove := hdown hneg
    right
    split_ifs at hsum <;> omega
  · have hstays : (accumWidth tgt cur dpf).toNat = cur.toNat := by simpa [hzero] using hsum
    rw [hstays]
    omega
  · have hbelow := hup hpos
    left
    split_ifs at hsum <;> omega

/-- Settles O25: REMAIN, FRAMECNT and each channel by its own lemma; the frame is that of `accum`. -/
theorem accumAddsAndClampsExactly : Obligations.AccumAddsAndClampsExactly := by
  unfold Obligations.AccumAddsAndClampsExactly
  intro s hdrained
  refine ⟨_, exec_accum_of_drained hdrained, rfl, accum_remain_toNat s.eng, accum_frameCnt_toNat s.eng, fun c => ?_⟩
  have hwidth := accumWidth_toNat s.eng.tgt[c] s.eng.cur[c] s.eng.dpf[c]
  rw [← accum_cur_get] at hwidth
  exact hwidth

/-- Settles O26: the invariant gives each channel a delta that points at its target, and `ChannelOk.between_accum`. -/
theorem accumApproachesTargetMonotonically : Obligations.AccumApproachesTargetMonotonically := by
  unfold Obligations.AccumApproachesTargetMonotonically
  intro s hdrained hinv
  refine ⟨_, exec_accum_of_drained hdrained, fun c => ?_⟩
  obtain ⟨hwidths, _, _⟩ := (engineInv_iff s.eng).mp hinv
  have hbetween := (hwidths c).between_accum
  rw [← accum_cur_get] at hbetween
  exact hbetween

end Sys2Proof.Machine
end

section
/-! The slots of the Edge table (43_schedule.md R145): each entry is the rising or the falling edge of one sorted
position of one group, with its channel, its action and the times of it and of the edge after it. -/

namespace Sys2Proof.Machine

/-! The slots. -/

/-- The entry of the rising edge at sorted position i of group g (43_schedule.md R145). -/
def riseSlot (g : Group) (i : Fin 3) : EdgeIdx := ⟨6 * g.val + i.val, by omega⟩

/-- The entry of the matching falling edge (43_schedule.md R145). -/
def fallSlot (g : Group) (i : Fin 3) : EdgeIdx := ⟨6 * g.val + 3 + i.val, by omega⟩

/-- The time of the rising edge at sorted position i of group g (43_schedule.md R143). -/
def riseTime (p : Config.Params) (g : Group) (i : Fin 3) : Nat := 3000 * g.val + p.risingEdgeSpacing * i.val

/-- The time of the matching falling edge, one key later (43_schedule.md R144). -/
def fallTime (p : Config.Params) (k : Chan → Nat) (g : Group) (i : Fin 3) : Nat :=
  riseTime p g i + k (sortedChannel k g i)

section
variable (p : Config.Params) (k : Chan → Nat) (g : Group) (i : Fin 3)

@[simp] theorem riseSlot_val : (riseSlot g i).val = 6 * g.val + i.val := rfl
@[simp] theorem fallSlot_val : (fallSlot g i).val = 6 * g.val + 3 + i.val := rfl

@[simp] theorem edgeTime_riseSlot : edgeTime p k (riseSlot g i) = riseTime p g i :=
  (edgeTime_rise p k g i (riseSlot g i) rfl).left

@[simp] theorem edgeTime_fallSlot : edgeTime p k (fallSlot g i) = fallTime p k g i :=
  (edgeTime_fall p k g i (fallSlot g i) rfl).left

@[simp] theorem edgeChannel_riseSlot : edgeChannel k (riseSlot g i) = sortedChannel k g i :=
  (edgeTime_rise .default k g i (riseSlot g i) rfl).right.left

@[simp] theorem edgeChannel_fallSlot : edgeChannel k (fallSlot g i) = sortedChannel k g i :=
  (edgeTime_fall .default k g i (fallSlot g i) rfl).right.left

theorem riseSlot_lt_fallSlot : riseSlot g i < fallSlot g i := by
  rw [Fin.lt_def, riseSlot_val, fallSlot_val]
  omega

/-- A rising edge sets its pin unless the channel is forced low (43_schedule.md R143). -/
@[simp] theorem edgeSets_riseSlot :
    edgeSets p k (riseSlot g i) = decide (p.minPulse ≤ k (sortedChannel k g i)) := by
  have hrises := (edgeTime_rise p k g i (riseSlot g i) rfl).right.right
  simp [edgeSets, hrises]

/-- A falling edge clears its pin unless the channel is forced high (43_schedule.md R144). -/
@[simp] theorem edgeSets_fallSlot :
    edgeSets p k (fallSlot g i) = decide (p.maxPulse < k (sortedChannel k g i)) := by
  have hfalls := (edgeTime_fall p k g i (fallSlot g i) rfl).right.right
  simp [edgeSets, hfalls]

/-- Every entry is one slot (`edgeIdx_cases`). -/
theorem exists_slot (j : EdgeIdx) : ∃ (g : Group) (i : Fin 3), j = riseSlot g i ∨ j = fallSlot g i := by
  obtain ⟨g, i, hrise | hfall⟩ := edgeIdx_cases j
  · exact ⟨g, i, .inl (Fin.ext hrise)⟩
  · exact ⟨g, i, .inr (Fin.ext hfall)⟩

/-! The edge after a slot (43_schedule.md R145, R146). -/

theorem nextEdgeTime_of_succ {j j' : EdgeIdx} (h : j'.val = j.val + 1) :
    nextEdgeTime p k j = edgeTime p k j' := by
  have hlt : j.val + 1 < 24 := h ▸ j'.isLt
  obtain rfl : j' = ⟨j.val + 1, hlt⟩ := Fin.ext h
  exact dif_pos hlt

theorem nextEdgeTime_last : nextEdgeTime p k 23 = 20000 := rfl

/-- After a rising edge comes the next one of the group, after the third the first falling edge. -/
theorem nextEdgeTime_riseSlot : nextEdgeTime p k (riseSlot g i) =
    if i = 0 then riseTime p g 1 else if i = 1 then riseTime p g 2 else fallTime p k g 0 := by
  fin_cases i
  · exact (nextEdgeTime_of_succ p k (j' := riseSlot g 1) rfl).trans (edgeTime_riseSlot p k g 1)
  · exact (nextEdgeTime_of_succ p k (j' := riseSlot g 2) rfl).trans (edgeTime_riseSlot p k g 2)
  · exact (nextEdgeTime_of_succ p k (j' := fallSlot g 0) rfl).trans (edgeTime_fallSlot p k g 0)

/-- After the last falling edge of a group comes the start of the next group, after the last group the next frame. -/
theorem nextEdgeTime_fallSlot_last :
    nextEdgeTime p k (fallSlot g 2) = if g.val < 3 then 3000 * (g.val + 1) else 20000 := by
  split
  case isTrue hg =>
    have hfirst := edgeTime_riseSlot p k ⟨g.val + 1, by omega⟩ 0
    rw [nextEdgeTime_of_succ p k (j' := riseSlot ⟨g.val + 1, by omega⟩ 0) (by simp; omega), hfirst]
    simp [riseTime]
  case isFalse hg =>
    have hlast : fallSlot g 2 = 23 := Fin.ext (by simp; omega)
    rw [hlast, nextEdgeTime_last]

theorem nextEdgeTime_fallSlot : nextEdgeTime p k (fallSlot g i) =
    if i = 0 then fallTime p k g 1 else if i = 1 then fallTime p k g 2
    else if g.val < 3 then 3000 * (g.val + 1) else 20000 := by
  fin_cases i
  · exact (nextEdgeTime_of_succ p k (j' := fallSlot g 1) rfl).trans (edgeTime_fallSlot p k g 1)
  · exact (nextEdgeTime_of_succ p k (j' := fallSlot g 2) rfl).trans (edgeTime_fallSlot p k g 2)
  · exact nextEdgeTime_fallSlot_last p k g

end

/-! The slots of one channel (43_schedule.md R150). -/

/-- A channel fixes its group and its sorted position. -/
theorem sortedChannel_inj (k : Chan → Nat) {g g' : Group} {i i' : Fin 3} :
    sortedChannel k g i = sortedChannel k g' i' ↔ g = g' ∧ i = i' := by
  constructor
  · intro h
    obtain rfl : g = g' :=
      Fin.ext ((sortedChannel_group k g i).symm.trans ((congrArg (·.val / 3) h).trans (sortedChannel_group k g' i')))
    exact ⟨rfl, sortedChannel_injective k g i i' h⟩
  · rintro ⟨rfl, rfl⟩
    rfl

/-- The two entries that name the channel at sorted position i of group g. -/
theorem edgeChannel_eq_sortedChannel_iff (k : Chan → Nat) (g : Group) (i : Fin 3) (j : EdgeIdx) :
    edgeChannel k j = sortedChannel k g i ↔ j = riseSlot g i ∨ j = fallSlot g i := by
  constructor
  · intro h
    obtain ⟨g', i', rfl | rfl⟩ := exists_slot j
    · rw [edgeChannel_riseSlot, sortedChannel_inj] at h
      obtain ⟨rfl, rfl⟩ := h
      exact .inl rfl
    · rw [edgeChannel_fallSlot, sortedChannel_inj] at h
      obtain ⟨rfl, rfl⟩ := h
      exact .inr rfl
  · rintro (rfl | rfl)
    · exact edgeChannel_riseSlot k g i
    · exact edgeChannel_fallSlot k g i

/-- Every channel has a sorted position in the group of its number. -/
theorem exists_sortedChannel_eq (k : Chan → Nat) (c : Chan) :
    ∃ (g : Group) (i : Fin 3), g.val = c.val / 3 ∧ sortedChannel k g i = c := by
  have hg : c.val / 3 < 4 := by omega
  obtain ⟨i, hi⟩ := sortedChannel_surjective k ⟨c.val / 3, hg⟩ c rfl
  exact ⟨_, i, rfl, hi⟩

end Sys2Proof.Machine
end

section
/-! The deltas as differences of times (43_schedule.md R146): consecutive ones add up to the time between two edges. -/

namespace Sys2Proof.Machine

/-- abs(n) of the edge that closes the first n deltas: edge n of the table, the next frame from n = 24 on. -/
def tableTime (p : Config.Params) (k : Chan → Nat) (n : Nat) : Nat :=
  if h : n < 24 then edgeTime p k ⟨n, h⟩ else Config.frameTicks

theorem tableTime_of_edge (p : Config.Params) (k : Chan → Nat) (j : EdgeIdx) :
    tableTime p k j.val = edgeTime p k j := dif_pos j.isLt

theorem tableTime_end (p : Config.Params) (k : Chan → Nat) : tableTime p k 24 = 20000 := rfl

theorem tableTime_succ (p : Config.Params) (k : Chan → Nat) (j : EdgeIdx) :
    tableTime p k (j.val + 1) = nextEdgeTime p k j := rfl

/-- The deltas from entry m up to entry n lead from the time of the one to the time of the other. -/
theorem tableTime_add_sum_entryTicks (p : Config.Params) (e : Engine) {m n : Nat} (hmn : m ≤ n) (hn : n ≤ 24) :
    tableTime p (key p e) m +
        ∑ j : EdgeIdx, (if m ≤ j.val ∧ j.val < n then entryTicks (sched p e) j else 0) =
      tableTime p (key p e) n := by
  induction n, hmn using Nat.le_induction with
  | base =>
    have hnone : ∀ j : EdgeIdx, ¬(m ≤ j.val ∧ j.val < m) := by omega
    simp [hnone]
  | succ n hmn ih =>
    obtain ⟨last, rfl⟩ : ∃ last : EdgeIdx, last.val = n := ⟨⟨n, hn⟩, rfl⟩
    have hsplit : ∀ j : EdgeIdx, (if m ≤ j.val ∧ j.val < last.val + 1 then entryTicks (sched p e) j else 0) =
        (if m ≤ j.val ∧ j.val < last.val then entryTicks (sched p e) j else 0) +
          if j = last then entryTicks (sched p e) j else 0 := by
      intro j
      simp only [Fin.ext_iff]
      split_ifs <;> omega
    simp only [hsplit, Finset.sum_add_distrib, Finset.sum_ite_eq', Finset.mem_univ, if_true]
    rw [← add_assoc, ih (by omega), tableTime_of_edge, sched_entryTicks, tableTime_succ]

end Sys2Proof.Machine
end

section
/-! What the entries of a group depend on (43_schedule.md R150, R152): the keys of the three channels of the group. -/

namespace Sys2Proof.Machine

theorem mem_insertChannel (k : Chan → Nat) (a x : Chan) (l : List Chan) :
    x ∈ insertChannel k a l ↔ x = a ∨ x ∈ l := by
  induction l with
  | nil => simp [insertChannel]
  | cons b rest ih =>
    rw [insertChannel]
    split
    case isTrue => simp
    case isFalse => rw [List.mem_cons, ih, List.mem_cons, or_left_comm]

section
variable {k k' : Chan → Nat}

/-- An insertion compares no other keys than those of the channel and of the list. -/
theorem insertChannel_congr {a : Chan} {l : List Chan} (ha : k a = k' a) (hl : ∀ x ∈ l, k x = k' x) :
    insertChannel k a l = insertChannel k' a l := by
  induction l with
  | nil => rfl
  | cons b rest ih =>
    obtain ⟨hb, hrest⟩ := List.forall_mem_cons.mp hl
    have hbefore : sortsBefore k a b = sortsBefore k' a b := by simp only [sortsBefore, ha, hb]
    rw [insertChannel, insertChannel, hbefore, ih hrest]

variable {g : Group} (h : ∀ c : Chan, c.val / 3 = g.val → k c = k' c)
include h

theorem sortedGroup_congr : sortedGroup k g = sortedGroup k' g := by
  have hmember (i : Fin 3) : k (groupChannel g i) = k' (groupChannel g i) :=
    h _ (by simp only [groupChannel]; omega)
  have hlast : ∀ x ∈ [groupChannel g 2], k x = k' x := by simpa using hmember 2
  unfold sortedGroup
  rw [insertChannel_congr (hmember 1) hlast]
  refine insertChannel_congr (hmember 0) fun x hx => ?_
  rcases (mem_insertChannel _ _ _ _).mp hx with rfl | hx
  · exact hmember 1
  · exact hlast x hx

theorem sortedChannel_congr (i : Fin 3) : sortedChannel k g i = sortedChannel k' g i := by
  unfold sortedChannel
  rw [sortedGroup_congr h]

theorem key_sortedChannel_congr (i : Fin 3) : k (sortedChannel k' g i) = k' (sortedChannel k' g i) :=
  h _ (sortedChannel_group k' g i)

theorem fallTime_congr (p : Config.Params) (i : Fin 3) : fallTime p k g i = fallTime p k' g i := by
  unfold fallTime
  rw [sortedChannel_congr h i, key_sortedChannel_congr h i]

/-- An entry is written from its channel, the key of that channel, its time and the time of the next edge, and the first
edge of the next group has a fixed time (43_schedule.md R152). -/
theorem schedEntry_riseSlot_congr (p : Config.Params) (i : Fin 3) :
    schedEntry p k (riseSlot g i) = schedEntry p k' (riseSlot g i) := by
  simp only [schedEntry, edgeSets_riseSlot, edgeChannel_riseSlot, edgeTime_riseSlot, nextEdgeTime_riseSlot,
    key_sortedChannel_congr h, sortedChannel_congr h, fallTime_congr h]

theorem schedEntry_fallSlot_congr (p : Config.Params) (i : Fin 3) :
    schedEntry p k (fallSlot g i) = schedEntry p k' (fallSlot g i) := by
  simp only [schedEntry, edgeSets_fallSlot, edgeChannel_fallSlot, edgeTime_fallSlot, nextEdgeTime_fallSlot,
    key_sortedChannel_congr h, sortedChannel_congr h, fallTime_congr h]

theorem schedEntry_congr (p : Config.Params) {j : EdgeIdx} (hj : j.val / 6 = g.val) :
    schedEntry p k j = schedEntry p k' j := by
  obtain ⟨g', i, rfl | rfl⟩ := exists_slot j
  · obtain rfl : g' = g := Fin.ext (by rw [riseSlot_val] at hj; omega)
    exact schedEntry_riseSlot_congr h p i
  · obtain rfl : g' = g := Fin.ext (by rw [fallSlot_val] at hj; omega)
    exact schedEntry_fallSlot_congr h p i

end

end Sys2Proof.Machine
end

section
/-! The statements about SCHED (43_schedule.md R141 to R152), each read off the slots of the table. -/

namespace Sys2Proof.Machine

theorem exec_sched_of_drained {s : State} (h : s.eng.cursor = 24) :
    exec .sched s = .next (s.withEngine (sched s.cfg s.eng)) :=
  (exec_sched s).trans (whenTableDone_of_drained (sched s.cfg) h)

/-- Where SCHED answers at all it has run. -/
theorem eq_of_exec_sched {s t : State} (h : exec .sched s = .next t) : t = s.withEngine (sched s.cfg s.eng) := by
  rcases whenTableDone_cases (sched s.cfg) s with ⟨_, hrun⟩ | ⟨_, hstop⟩
  · exact Host.Outcome.next.inj (h.symm.trans hrun)
  · cases h.symm.trans hstop

/-- The thresholds bound a range of pulses that holds a width and leaves out 0 (00_scope.md R7). -/
theorem pulseRange_nonempty (p : Config.Params) : 0 < p.minPulse ∧ p.minPulse ≤ p.maxPulse := by
  have hok := p.ok
  omega

/-! The key of a channel in the three ranges of its width (43_schedule.md R141). -/

section
variable {p : Config.Params} {e : Engine} {c : Chan}

theorem key_of_forcedLow (h : us e.cur[c] < p.minPulse) : key p e c = p.minPulse - 1 := if_pos h

theorem key_of_forcedHigh (h : p.maxPulse < us e.cur[c]) : key p e c = p.maxPulse + 1 := by
  have hrange := pulseRange_nonempty p
  rw [key, keyOfWidth, if_neg (by omega), if_pos h]

theorem key_of_pulse (hmin : p.minPulse ≤ us e.cur[c]) (hmax : us e.cur[c] ≤ p.maxPulse) :
    key p e c = us e.cur[c] := by
  rw [key, keyOfWidth, if_neg (by omega), if_neg (by omega)]

end

/-- Settles O28: the order is that of the sort, and each entry is a slot. -/
theorem schedPlacesSortedGroups : Obligations.SchedPlacesSortedGroups := by
  unfold Obligations.SchedPlacesSortedGroups
  intro s hdrained
  refine ⟨_, exec_sched_of_drained hdrained, rfl, fun g =>
    ⟨sortedChannel (key s.cfg s.eng) g, ?group, ?order, ?rise, ?fall⟩⟩
  case group => exact sortedChannel_group _ g
  case order => exact fun i j hij => (sortsBefore_iff (key s.cfg s.eng) _ _).mp (sortedChannel_before _ g i j hij)
  case rise =>
    intro i j hj
    obtain rfl : j = riseSlot g i := Fin.ext hj
    have hticks := sched_entryTicks s.cfg s.eng (riseSlot g i)
    rw [edgeTime_riseSlot, nextEdgeTime_riseSlot] at hticks
    exact ⟨by rw [withEngine_eng, sched_entryChan, edgeChannel_riseSlot],
      (sched_entrySets _ _ _).trans (edgeSets_riseSlot _ _ g i), hticks⟩
  case fall =>
    intro i j hj
    obtain rfl : j = fallSlot g i := Fin.ext hj
    have hticks := sched_entryTicks s.cfg s.eng (fallSlot g i)
    rw [edgeTime_fallSlot, nextEdgeTime_fallSlot] at hticks
    exact ⟨by rw [withEngine_eng, sched_entryChan, edgeChannel_fallSlot],
      (sched_entrySets _ _ _).trans (edgeSets_fallSlot _ _ g i), hticks⟩

/-- Settles O29: the deltas lead from time 0 of the first edge to the next frame. -/
theorem schedDeltasAddUpToFrame : Obligations.SchedDeltasAddUpToFrame := by
  unfold Obligations.SchedDeltasAddUpToFrame
  intro s hdrained
  refine ⟨_, exec_sched_of_drained hdrained, ?_⟩
  have hstart : tableTime s.cfg (key s.cfg s.eng) 0 = 0 :=
    (edgeTime_riseSlot s.cfg (key s.cfg s.eng) 0 0).trans (by simp [riseTime])
  have hsum := tableTime_add_sum_entryTicks s.cfg s.eng (Nat.zero_le 24) le_rfl
  simpa [hstart, tableTime_end] using hsum

/-- Settles O30: `edgeTime_add_spacing_le`, and the time of the last falling edge under the largest key. -/
theorem schedKeepsMinimumSpacing : Obligations.SchedKeepsMinimumSpacing := by
  unfold Obligations.SchedKeepsMinimumSpacing
  intro s hdrained
  refine ⟨_, exec_sched_of_drained hdrained, fun j => ?spacing, ?window⟩
  case spacing =>
    have hdelta := sched_entryTicks s.cfg s.eng j
    have hspacing := edgeTime_add_spacing_le s.cfg s.eng j
    rw [withEngine_eng]
    omega
  case window =>
    have hdelta := sched_entryTicks s.cfg s.eng 23
    have hlast : edgeTime s.cfg (key s.cfg s.eng) 23 = fallTime s.cfg (key s.cfg s.eng) 3 2 :=
      edgeTime_fallSlot s.cfg (key s.cfg s.eng) 3 2
    have hkey := key_bounds s.cfg s.eng (sortedChannel (key s.cfg s.eng) 3 2)
    rw [nextEdgeTime_last, hlast] at hdelta
    simp only [fallTime, riseTime, Fin.isValue, Fin.coe_ofNat_eq_mod] at hdelta
    simp only [regenerationWindow, Config.frameTicks, Config.nGroups, Config.groupSlotTicks, withEngine_eng]
    omega

/-- Settles O31: the two slots that name a channel are those of its sorted position. -/
theorem schedPlacesEveryChannelTwice : Obligations.SchedPlacesEveryChannelTwice := by
  unfold Obligations.SchedPlacesEveryChannelTwice
  intro s hdrained
  refine ⟨_, exec_sched_of_drained hdrained, fun c => ?_⟩
  obtain ⟨g, i, hg, rfl⟩ := exists_sortedChannel_eq (key s.cfg s.eng) c
  refine ⟨i, fun j => ?_⟩
  rw [withEngine_eng, sched_entryChan, ← Fin.ext_iff, edgeChannel_eq_sortedChannel_iff, ← hg, Fin.ext_iff,
    Fin.ext_iff, riseSlot_val, fallSlot_val]

/-- Settles O32: equal whole widths give equal keys, and `schedEntry_congr`. -/
theorem schedGroupsAreIndependent : Obligations.SchedGroupsAreIndependent := by
  unfold Obligations.SchedGroupsAreIndependent
  intro s s' t t' g hcfg hrun hrun' hwidths j hj
  have hkeys : ∀ c : Chan, c.val / 3 = g.val → key s.cfg s.eng c = key s.cfg s'.eng c :=
    fun c hc => congrArg (keyOfWidth s.cfg) (hwidths c hc)
  rw [eq_of_exec_sched hrun, eq_of_exec_sched hrun', ← hcfg]
  simpa using schedEntry_congr hkeys s.cfg hj

/-- Settles O33: the two slots of a channel, its key in each range of its width, and the deltas between the slots. -/
theorem pulseLastsWholeMicroseconds : Obligations.PulseLastsWholeMicroseconds := by
  unfold Obligations.PulseLastsWholeMicroseconds
  intro s hdrained
  refine ⟨_, exec_sched_of_drained hdrained, fun c => ?_⟩
  obtain ⟨g, i, _, rfl⟩ := exists_sortedChannel_eq (key s.cfg s.eng) c
  have hrange := pulseRange_nonempty s.cfg
  have hsum := tableTime_add_sum_entryTicks s.cfg s.eng (riseSlot_lt_fallSlot g i).le (fallSlot g i).isLt.le
  rw [tableTime_of_edge, tableTime_of_edge, edgeTime_riseSlot, edgeTime_fallSlot, fallTime,
    Nat.add_left_cancel_iff] at hsum
  simp only [withEngine_eng]
  refine ⟨riseSlot g i, fallSlot g i, riseSlot_lt_fallSlot g i, by rw [sched_entryChan, edgeChannel_riseSlot],
    by rw [sched_entryChan, edgeChannel_fallSlot], ?_⟩
  simp only [sched_entrySets, edgeSets_riseSlot, edgeSets_fallSlot, decide_eq_true_eq, decide_eq_false_iff_not]
  refine ⟨fun hlow => ?low, fun hhigh => ?high, fun hmin hmax => ?pulse⟩
  case low =>
    rw [key_of_forcedLow hlow]
    omega
  case high =>
    rw [key_of_forcedHigh hhigh]
    omega
  case pulse =>
    have hkey := key_of_pulse hmin hmax
    rw [hkey] at hsum ⊢
    exact ⟨hmin, Nat.not_lt.mpr hmax, hsum⟩

end Sys2Proof.Machine
end

section
/-! One edge word, DISPATCH and TICK (44_dispatch.md R160 to R168): what each answers, and what it leaves unchanged. -/

namespace Sys2Proof.Machine

/-! One edge word (44_dispatch.md R163, R164). -/

/-- The pins after a pin action: the one it names takes the level. -/
theorem writePin_pout_get (c : Chan) (level : Bool) (e : Engine) (d : Chan) :
    (writePin c level e).pout[d] = if d.val = c.val then level else e.pout[d] := by
  simp [Vector.getElem_set, eq_comm]

/-- An edge word of a channel 0 to 11 runs with CURSOR below 24, and writes its pin, CURSOR and TCMP only. -/
theorem runEdgeWord_drives_pin (level : Bool) {ch : BitVec 4} (dt : U16) {s : State} (hch : ch.toNat < 12)
    (hinUse : s.eng.cursor ≠ 24) :
    ∃ t, runEdgeWord level ch dt s = .next t ∧
      t = { s with eng := { s.eng with pout := t.eng.pout, cursor := t.eng.cursor, tcmp := s.eng.tcmp + dt } } ∧
      t.eng.cursor.val = s.eng.cursor.val + 1 ∧
      ∀ c : Chan, t.eng.pout[c] = if c.val = ch.toNat then level else s.eng.pout[c] := by
  rcases runEdgeWord_cases level ch dt s with ⟨c, hc, _, hrun⟩ | ⟨_, hdrained, _⟩ | ⟨hstuck, _⟩
  · exact ⟨_, hrun, rfl, nextCursor_val _ hinUse, fun d => hc ▸ writePin_pout_get c level s.eng d⟩
  · exact absurd hdrained hinUse
  · omega

/-! The entry at CURSOR (44_dispatch.md R162). -/

/-- The engine after the edge word of entry j on channel c, with IF cleared first. -/
def fireEdge (j : EdgeIdx) (c : Chan) (e : Engine) : Engine :=
  advance (dtField (edgeWord e.edge[j])) (writePin c (entrySets e j) (clearInterrupt e))

section
variable (j : EdgeIdx) (c : Chan) (e : Engine)

@[simp] theorem fireEdge_edge : (fireEdge j c e).edge = e.edge := rfl
@[simp] theorem fireEdge_tcnt : (fireEdge j c e).tcnt = e.tcnt := rfl
@[simp] theorem fireEdge_ifl : (fireEdge j c e).ifl = false := rfl
@[simp] theorem fireEdge_ie : (fireEdge j c e).ie = e.ie := rfl
@[simp] theorem fireEdge_en : (fireEdge j c e).en = e.en := rfl
@[simp] theorem fireEdge_underrun : (fireEdge j c e).underrun = e.underrun := rfl

theorem fireEdge_cursor (hj : e.cursor.val = j.val) : (fireEdge j c e).cursor.val = j.val + 1 :=
  (nextCursor_val_of_entry hj.symm).trans (congrArg (· + 1) hj)

/-- The next compare time is the old one plus DT (44_dispatch.md R167). -/
theorem fireEdge_tcmp : (fireEdge j c e).tcmp = e.tcmp + BitVec.ofNat 16 (entryTicks e j) := by
  rw [entryTicks, BitVec.ofNat_toNat, BitVec.setWidth_eq]
  rfl

theorem fireEdge_pout_get (d : Chan) :
    (fireEdge j c e).pout[d] = if d.val = c.val then entrySets e j else e.pout[d] :=
  writePin_pout_get c (entrySets e j) (clearInterrupt e) d

end

/-- The engine with the timer at a count. -/
def setCount (n : U16) (e : Engine) : Engine := { e with tcnt := n }

section
variable (n : U16) (e : Engine)

@[simp] theorem setCount_edge : (setCount n e).edge = e.edge := rfl
@[simp] theorem setCount_cursor : (setCount n e).cursor = e.cursor := rfl
@[simp] theorem setCount_tcnt : (setCount n e).tcnt = n := rfl
@[simp] theorem setCount_tcmp : (setCount n e).tcmp = e.tcmp := rfl
@[simp] theorem setCount_ifl : (setCount n e).ifl = e.ifl := rfl
@[simp] theorem setCount_ie : (setCount n e).ie = e.ie := rfl
@[simp] theorem setCount_en : (setCount n e).en = e.en := rfl
@[simp] theorem setCount_underrun : (setCount n e).underrun = e.underrun := rfl
@[simp] theorem setCount_pout : (setCount n e).pout = e.pout := rfl
@[simp] theorem entryTicks_setCount (j : EdgeIdx) : entryTicks (setCount n e) j = entryTicks e j := rfl
@[simp] theorem entrySets_setCount (j : EdgeIdx) : entrySets (setCount n e) j = entrySets e j := rfl

/-- Where no interrupt is pending and the new count is no match, a tick moves the count alone (44_dispatch.md R160). -/
theorem countTick_of_no_match {e : Engine} (hifl : e.ifl = false) (hne : e.tcnt + 1 ≠ e.tcmp) :
    countTick e = setCount (e.tcnt + 1) e := by
  have hquiet : (e.ifl || e.tcnt + 1 == e.tcmp) = e.ifl := by
    rw [hifl, beq_eq_false_iff_ne.mpr hne, Bool.or_false]
  rw [countTick, hquiet, setCount]

/-- An edge word that fires clears IF, so of a tick before it only the count is left. -/
theorem fireEdge_countTick (j : EdgeIdx) (c : Chan) :
    fireEdge j c (countTick e) = fireEdge j c (setCount (e.tcnt + 1) e) := rfl

end

/-- The body of DISPATCH on an entry that names a channel. -/
theorem dispatchBody_fires {s : State} {j : EdgeIdx} (hj : s.eng.cursor.val = j.val)
    (hchan : entryChan s.eng j < 12) :
    ∃ c : Chan, c.val = entryChan s.eng j ∧ dispatchBody s = .next (s.withEngine (fireEdge j c s.eng)) :=
  dispatchBody_next s j hj.symm hchan

/-- DISPATCH runs its body with IF = 1 and IE = 1. -/
theorem exec_dispatch_of_interrupt {s : State} (hifl : s.eng.ifl = true) (hie : s.eng.ie = true) :
    exec .dispatch s = dispatchBody s := by
  rcases dispatchIfPending_cases s with ⟨_, _, _, hrun⟩ | ⟨hoff | hoff, _, _⟩
  · exact hrun
  · cases hifl.symm.trans hoff
  · cases hie.symm.trans hoff

/-! TICK (44_dispatch.md R160, R161). -/

theorem exec_tick_of_enabled {s : State} (hen : s.eng.en = true) :
    exec .tick s = dispatchIfPending (s.withEngine (countTick s.eng)) := by
  rcases execTick_cases s with ⟨_, hrun⟩ | ⟨hdisabled, _⟩
  · exact hrun
  · cases hen.symm.trans hdisabled

theorem dispatchIfPending_of_interrupt {s : State} (hifl : s.eng.ifl = true) (hie : s.eng.ie = true) :
    dispatchIfPending s = exec .dispatch s := by
  rcases dispatchIfPending_cases s with ⟨_, _, hrun, hdispatch⟩ | ⟨hoff | hoff, _, _⟩
  · exact hrun.trans hdispatch.symm
  · cases hifl.symm.trans hoff
  · cases hie.symm.trans hoff

theorem dispatchIfPending_of_quiet {s : State} (hquiet : s.eng.ifl = false ∨ s.eng.ie = false) :
    dispatchIfPending s = .next s := by
  rcases dispatchIfPending_cases s with ⟨hifl, hie, _, _⟩ | ⟨_, hrun, _⟩
  · simp [hifl, hie] at hquiet
  · exact hrun

/-- The match, on the numbers of the registers (44_dispatch.md R161). -/
theorem matches_iff_toNat (e : Engine) :
    (e.tcnt + 1 == e.tcmp) = decide ((e.tcnt.toNat + 1) % 2 ^ 16 = e.tcmp.toNat) := by
  rw [Bool.eq_iff_iff, beq_iff_eq, decide_eq_true_eq, ← BitVec.toNat_inj, BitVec.toNat_add]
  rfl

/-- A tick that finds no interrupt and reaches no match only counts, whatever IE is. -/
theorem exec_tick_of_no_match {s : State} (hen : s.eng.en = true) (hifl : s.eng.ifl = false)
    (hne : s.eng.tcnt + 1 ≠ s.eng.tcmp) :
    exec .tick s = .next (s.withEngine (setCount (s.eng.tcnt + 1) s.eng)) := by
  rw [exec_tick_of_enabled hen, countTick_of_no_match hifl hne]
  exact dispatchIfPending_of_quiet (.inl hifl)

/-- A tick that reaches the match fires the entry at CURSOR. -/
theorem exec_tick_of_match {s : State} {j : EdgeIdx} (hen : s.eng.en = true) (hie : s.eng.ie = true)
    (hj : s.eng.cursor.val = j.val) (hchan : entryChan s.eng j < 12) (hmatch : s.eng.tcnt + 1 = s.eng.tcmp) :
    ∃ c : Chan, c.val = entryChan s.eng j ∧
      exec .tick s = .next (s.withEngine (fireEdge j c (setCount s.eng.tcmp s.eng))) := by
  obtain ⟨c, hc, hrun⟩ := dispatchBody_fires (s := s.withEngine (countTick s.eng)) hj hchan
  rw [withEngine_eng, fireEdge_countTick, hmatch] at hrun
  exact ⟨c, hc, (execTick_of_match hen hie hmatch).trans hrun⟩

/-! What a tick leaves unchanged (44_dispatch.md R168). -/

/-- DISPATCH writes nothing outside the engine. -/
theorem eq_withEngine_of_dispatchBody {s t : State} (h : dispatchBody s = .next t) : t = s.withEngine t.eng := by
  rcases dispatchBody_cases s with ⟨j, _, hbody⟩ | ⟨_, hbody⟩
  · rw [hbody] at h
    rcases runEdgeAt_cases j (s.withEngine (clearInterrupt s.eng)) with ⟨c, _, _, hrun⟩ | ⟨_, _, hrun⟩ | ⟨_, hrun⟩
    · obtain rfl := Host.Outcome.next.inj (hrun.symm.trans h)
      rfl
    · cases hrun.symm.trans h
    · cases hrun.symm.trans h
  · obtain rfl := Host.Outcome.next.inj (hbody.symm.trans h)
    rfl

theorem eq_withEngine_of_execTick {s t : State} (h : execTick s = .next t) : t = s.withEngine t.eng := by
  rcases execTick_cases s with ⟨_, htick⟩ | ⟨_, hstop⟩
  · rw [htick] at h
    rcases dispatchIfPending_cases (s.withEngine (countTick s.eng)) with ⟨_, _, hrun, _⟩ | ⟨_, hrun, _⟩
    · exact (eq_withEngine_of_dispatchBody (hrun.symm.trans h)).trans rfl
    · obtain rfl := Host.Outcome.next.inj (hrun.symm.trans h)
      rfl
  · cases hstop.symm.trans h

/-- The components a tick may write (44_dispatch.md R168). -/
theorem TickEffect.frame {e e' : Engine} (effect : TickEffect e e') :
    e' = { e with
      tcnt := e.tcnt + 1, ifl := e'.ifl, tcmp := e'.tcmp, cursor := e'.cursor
      underrun := e'.underrun, pout := e'.pout } := by
  cases effect <;> rfl

/-- A pin that a tick changes is the one the entry at CURSOR names, and the cursor moves on with it. -/
theorem TickEffect.pin_of_entry {e e' : Engine} (effect : TickEffect e e') {d : Chan} (hne : e'.pout[d] ≠ e.pout[d]) :
    ∃ j : EdgeIdx, j.val = e.cursor.val ∧ entryChan e j = d.val ∧ e'.pout[d] = entrySets e j ∧
      e'.cursor.val = e.cursor.val + 1 := by
  cases effect with
  | edge j c atCursor channel =>
    have hpins := writePin_pout_get c (entrySets e j) (clearInterrupt (countTick e)) d
    rw [advance_pout] at hne ⊢
    by_cases hd : d.val = c.val
    · exact ⟨j, atCursor, (hd.trans channel).symm, hpins.trans (if_pos hd), nextCursor_val_of_entry atCursor⟩
    · exact absurd (hpins.trans (if_neg hd)) hne
  | count _ => exact absurd rfl hne
  | underrun _ => exact absurd rfl hne

/-! The statements about one operation. -/

/-- Settles O38: the decoder on the word's fields, and `runEdgeWord_drives_pin` for each of the two levels. -/
theorem edgeWordsDrivePinAndAdvance : Obligations.EdgeWordsDrivePinAndAdvance := by
  unfold Obligations.EdgeWordsDrivePinAndAdvance
  intro ch dt s hch hinUse
  have hvalid : ¬12 ≤ ch.toNat := Nat.not_le.mpr hch
  refine ⟨?eset, ?eclr, runEdgeWord_drives_pin true dt hch hinUse, runEdgeWord_drives_pin false dt hch hinUse⟩
  case eset => simpa [hvalid] using edgeWordsDecodeByActField 0 1 ch dt
  case eclr => simpa [hvalid] using edgeWordsDecodeByActField 0 0 ch dt

/-- Settles O39: DISPATCH answers `fireEdge`, read component by component. -/
theorem dispatchExecutesWordAtCursor : Obligations.DispatchExecutesWordAtCursor := by
  unfold Obligations.DispatchExecutesWordAtCursor
  intro s j hifl hie hj hchan
  obtain ⟨c, hc, hrun⟩ := dispatchBody_fires hj hchan
  refine ⟨s.withEngine (fireEdge j c s.eng), (exec_dispatch_of_interrupt hifl hie).trans hrun, rfl,
    fireEdge_cursor j c s.eng hj, ?compare, fun d => hc ▸ fireEdge_pout_get j c s.eng d⟩
  case compare =>
    rw [withEngine_eng, fireEdge_tcmp, BitVec.toNat_add, BitVec.toNat_ofNat, Nat.add_mod_mod]

/-- Settles O41: the state counted is the one `countTick` gives, and the third line of TICK on either side of its test. -/
theorem tickCountsAndDispatchesOnMatch : Obligations.TickCountsAndDispatchesOnMatch := by
  unfold Obligations.TickCountsAndDispatchesOnMatch
  intro s hen
  rw [← matches_iff_toNat, exec_tick_of_enabled hen]
  exact ⟨dispatchIfPending_of_interrupt (s := s.withEngine (countTick s.eng)),
    dispatchIfPending_of_quiet (s := s.withEngine (countTick s.eng))⟩

/-- Settles O42: the effect of the tick, component by component. -/
theorem tickTouchesOnlyTimerCursorAndOnePin : Obligations.TickTouchesOnlyTimerCursorAndOnePin := by
  unfold Obligations.TickTouchesOnlyTimerCursorAndOnePin
  intro s t htick
  have effect := tickEffect_of_execTick htick
  refine ⟨?frame, effect.underrun_mono, fun d hne => effect.pin_of_entry hne⟩
  case frame =>
    calc t = s.withEngine t.eng := eq_withEngine_of_execTick htick
      _ = _ := congrArg s.withEngine effect.frame

end Sys2Proof.Machine
end

section
/-! Runs of ticks (44_dispatch.md R161, R167, R170): up to the next match only the count moves, at the match the entry at
CURSOR fires, and so the entries of a table fire one after the other, each at its time. -/

namespace Sys2Proof.Machine

/-! Runs of steps. -/

section
variable {M : Host.Core}

theorem run_succ_of_next {s t : M.State} (h : M.step s = .next t) (n : Nat) : M.run (n + 1) s = M.run n t := by
  simp only [Host.Core.run, h]

/-- A run in two parts. -/
theorem run_add_of_next {m : Nat} {s t : M.State} (h : M.run m s = .next t) (n : Nat) :
    M.run (m + n) s = M.run n t := by
  induction m generalizing s with
  | zero =>
    obtain rfl := Host.Outcome.next.inj h
    rw [Nat.zero_add]
  | succ m ih =>
    rw [Nat.succ_add]
    cases hstep : M.step s with
    | next u =>
      rw [run_succ_of_next hstep] at h ⊢
      exact ih h
    | fault r =>
      simp only [Host.Core.run, hstep] at h
      cases h
    | refused r =>
      simp only [Host.Core.run, hstep] at h
      cases h

/-- A run looks at its first state only through the step. -/
theorem run_succ_congr {s s' : M.State} (h : M.step s = M.step s') (n : Nat) : M.run (n + 1) s = M.run (n + 1) s' := by
  simp only [Host.Core.run, h]

end

/-! The turns taken. -/

/-- The state when the turns before `rest` are taken: the script is what is left, and the response port is empty. -/
def State.turnsTaken (s : State) (rest : List Config.Turn) : State := { s with script := rest, resp := none }

@[simp] theorem turnsTaken_eng (s : State) (rest : List Config.Turn) : (s.turnsTaken rest).eng = s.eng := rfl
@[simp] theorem turnsTaken_script (s : State) (rest : List Config.Turn) : (s.turnsTaken rest).script = rest := rfl

/-- A step does not look at the word on the response port (30_encoding.md R93, assumption 4). -/
theorem step_turnsTaken_script (s : State) : step s = step (s.turnsTaken s.script) := by
  have hturn : takeTurn s = takeTurn (s.turnsTaken s.script) := by
    unfold takeTurn State.turnsTaken
    cases s.script <;> rfl
  unfold step
  rw [hturn, turnsTaken_eng]

/-! One tick of a run. -/

theorem step_tick {s : State} (rest : List Config.Turn) (hen : s.eng.en = true) :
    step (s.turnsTaken (⟨false, .tick⟩ :: rest)) = exec .tick (s.turnsTaken rest) :=
  step_of_tick (turnsTaken_script s _) hen

theorem step_tick_of_no_match {s : State} (rest : List Config.Turn) (hen : s.eng.en = true) (hifl : s.eng.ifl = false)
    (hne : s.eng.tcnt + 1 ≠ s.eng.tcmp) :
    step (s.turnsTaken (⟨false, .tick⟩ :: rest)) =
      .next ((s.withEngine (setCount (s.eng.tcnt + 1) s.eng)).turnsTaken rest) :=
  (step_tick rest hen).trans (exec_tick_of_no_match (s := s.turnsTaken rest) hen hifl hne)

theorem step_tick_of_match {s : State} {j : EdgeIdx} (rest : List Config.Turn) (hen : s.eng.en = true)
    (hie : s.eng.ie = true) (hj : s.eng.cursor.val = j.val) (hchan : entryChan s.eng j < 12)
    (hmatch : s.eng.tcnt + 1 = s.eng.tcmp) :
    ∃ c : Chan, c.val = entryChan s.eng j ∧ step (s.turnsTaken (⟨false, .tick⟩ :: rest)) =
      .next ((s.withEngine (fireEdge j c (setCount s.eng.tcmp s.eng))).turnsTaken rest) := by
  obtain ⟨c, hc, htick⟩ := exec_tick_of_match (s := s.turnsTaken rest) hen hie hj hchan hmatch
  exact ⟨c, hc, (step_tick rest hen).trans htick⟩

/-! Ticks up to the match. -/

theorem count_succ (tcnt : U16) (n : Nat) : tcnt + BitVec.ofNat 16 (n + 1) = tcnt + 1 + BitVec.ofNat 16 n := by
  rw [Nat.add_comm n 1, BitVec.ofNat_add, ← BitVec.add_assoc]
  rfl

/-- n ticks none of which reaches the match move the count by n, whatever IE is. -/
theorem run_ticks_before_match {n : Nat} {s : State} (rest : List Config.Turn) (hen : s.eng.en = true)
    (hifl : s.eng.ifl = false) (hne : ∀ m : Nat, 1 ≤ m → m ≤ n → s.eng.tcnt + BitVec.ofNat 16 m ≠ s.eng.tcmp) :
    core.run n (s.turnsTaken (List.replicate n ⟨false, .tick⟩ ++ rest)) =
      .next ((s.withEngine (setCount (s.eng.tcnt + BitVec.ofNat 16 n) s.eng)).turnsTaken rest) := by
  induction n generalizing s with
  | zero =>
    rw [BitVec.add_zero]
    rfl
  | succ n ih =>
    have hstep := step_tick_of_no_match (List.replicate n ⟨false, .tick⟩ ++ rest) hen hifl
      (hne 1 le_rfl (Nat.succ_pos n))
    have hrest := ih (s := s.withEngine (setCount (s.eng.tcnt + 1) s.eng)) hen hifl fun m _ hm =>
      count_succ s.eng.tcnt m ▸ hne (m + 1) (Nat.succ_pos m) (Nat.succ_le_succ hm)
    rw [count_succ]
    exact (run_succ_of_next hstep n).trans hrest

/-- Settles O43: the first step empties the port, and `run_ticks_before_match`. -/
theorem ticksBeforeMatchOnlyCount : Obligations.TicksBeforeMatchOnlyCount := by
  unfold Obligations.TicksBeforeMatchOnlyCount
  intro n s rest hpos hen hifl hscript hne
  obtain ⟨n, rfl⟩ := Nat.exists_eq_add_one_of_ne_zero hpos.ne'
  have hrun := run_ticks_before_match rest hen hifl hne
  rw [← hscript] at hrun
  exact (run_succ_congr (step_turnsTaken_script s) n).trans hrun

/-! The tick of the match. -/

/-- The engine takes its interrupts, and none is pending. -/
structure Armed (e : Engine) : Prop where
  enabled : e.en = true
  listening : e.ie = true
  noPending : e.ifl = false

/-- The run to the next match, d ticks ahead, fires the entry at CURSOR (44_dispatch.md R161, R162). -/
theorem run_ticks_to_match {d : Nat} {s : State} {j : EdgeIdx} {rest : List Config.Turn} (harmed : Armed s.eng)
    (hj : s.eng.cursor.val = j.val) (hchan : entryChan s.eng j < 12) (hpos : 0 < d) (hlt : d < 2 ^ 16)
    (hdue : s.eng.tcmp = s.eng.tcnt + BitVec.ofNat 16 d)
    (hscript : s.script = List.replicate d ⟨false, .tick⟩ ++ rest) :
    ∃ c : Chan, c.val = entryChan s.eng j ∧
      core.run d s = .next ((s.withEngine (fireEdge j c (setCount s.eng.tcmp s.eng))).turnsTaken rest) := by
  obtain ⟨hen, hie, hifl⟩ := harmed
  obtain ⟨n, rfl⟩ := Nat.exists_eq_add_one_of_ne_zero hpos.ne'
  have hearly : ∀ m : Nat, 1 ≤ m → m ≤ n → s.eng.tcnt + BitVec.ofNat 16 m ≠ s.eng.tcmp := by
    intro m _ hm heq
    have hnum := congrArg BitVec.toNat ((BitVec.add_right_inj _).mp (heq.trans hdue))
    simp only [BitVec.toNat_ofNat] at hnum
    omega
  have hmatch : s.eng.tcnt + BitVec.ofNat 16 n + 1 = s.eng.tcmp := by
    rw [hdue, BitVec.ofNat_add, ← BitVec.add_assoc]
    rfl
  have hcount := run_ticks_before_match (⟨false, .tick⟩ :: rest) hen hifl hearly
  obtain ⟨c, hc, hlast⟩ := step_tick_of_match
    (s := s.withEngine (setCount (s.eng.tcnt + BitVec.ofNat 16 n) s.eng)) rest hen hie hj hchan hmatch
  rw [List.replicate_succ', List.append_assoc, List.singleton_append] at hscript
  rw [← hscript] at hcount
  have hfirst := run_succ_congr (M := core) (step_turnsTaken_script s) n
  exact ⟨c, hc, hfirst.trans ((run_add_of_next hcount 1).trans (run_succ_of_next (M := core) hlast 0))⟩

/-! The entries of a table (44_dispatch.md R170). -/

section
variable {e e' : Engine} (h : e.edge = e'.edge) (j : EdgeIdx)
include h

theorem entrySets_congr : entrySets e j = entrySets e' j := by rw [entrySets, entrySets, h]

theorem entryChan_congr : entryChan e j = entryChan e' j := by rw [entryChan, entryChan, h]

theorem entryTicks_congr : entryTicks e j = entryTicks e' j := by rw [entryTicks, entryTicks, h]

end

/-- The engine between the entries n - 1 and n of a table SCHED built from d, begun at engine e₀ with entry 0 due at TCMP:
TCMP is at the time of entry n. -/
structure InTable (p : Config.Params) (d e₀ : Engine) (n : Nat) (e : Engine) : Prop where
  armed : Armed e
  table : e.edge = (sched p d).edge
  underrun : e.underrun = e₀.underrun
  cursor : e.cursor.val = n
  compare : e.tcmp = e₀.tcmp + BitVec.ofNat 16 (tableTime p (key p d) n)

section
variable {p : Config.Params} {d e₀ e : Engine} {j : EdgeIdx}

/-- Entry 0 is due at the start of the frame (43_schedule.md R143). -/
theorem tableTime_start (p : Config.Params) (k : Chan → Nat) : tableTime p k 0 = 0 :=
  (edgeTime_riseSlot p k 0 0).trans (by simp [riseTime])

/-- DT of an entry is the time to the following one (43_schedule.md R146). -/
theorem tableTime_add_entryTicks (p : Config.Params) (d : Engine) (j : EdgeIdx) :
    tableTime p (key p d) j.val + entryTicks (sched p d) j = tableTime p (key p d) (j.val + 1) := by
  rw [tableTime_of_edge, sched_entryTicks, tableTime_succ]

/-- An edge and the next one are at least a tick and less than 2^16 ticks apart (43_schedule.md R149). -/
theorem entryTicks_bounds (p : Config.Params) (d : Engine) (j : EdgeIdx) :
    0 < entryTicks (sched p d) j ∧ entryTicks (sched p d) j < 2 ^ 16 := by
  have hticks := sched_entryTicks p d j
  have hspacing := edgeTime_add_spacing_le p d j
  have hok := p.ok
  exact ⟨by omega, by omega⟩

theorem InTable.fireEdge (h : InTable p d e₀ j.val e) (c : Chan) (tcnt : U16) :
    InTable p d e₀ (j.val + 1) (fireEdge j c (setCount tcnt e)) where
  armed := ⟨h.armed.enabled, h.armed.listening, rfl⟩
  table := (fireEdge_edge j c _).trans h.table
  underrun := (fireEdge_underrun j c _).trans h.underrun
  cursor := fireEdge_cursor j c _ h.cursor
  compare := by
    rw [fireEdge_tcmp, setCount_tcmp, entryTicks_setCount, entryTicks_congr h.table, ← tableTime_add_entryTicks,
      BitVec.ofNat_add, ← BitVec.add_assoc, ← h.compare]

/-- Entry j has just been dispatched, at its time, and the turns `rest` are left. -/
structure JustFired (p : Config.Params) (d e₀ : Engine) (j : EdgeIdx) (rest : List Config.Turn) (t : State) : Prop where
  inTable : InTable p d e₀ (j.val + 1) t.eng
  count : t.eng.tcnt = e₀.tcmp + BitVec.ofNat 16 (tableTime p (key p d) j.val)
  pin : ∀ c : Chan, c.val = entryChan (sched p d) j → t.eng.pout[c] = entrySets (sched p d) j
  script : t.script = rest

/-- The run of the ticks up to the time of entry j fires it. -/
theorem run_ticks_to_entry {n : Nat} {s : State} {rest : List Config.Turn} (h : InTable p d e₀ j.val s.eng)
    (hpos : 0 < n) (hlt : n < 2 ^ 16) (hdue : s.eng.tcmp = s.eng.tcnt + BitVec.ofNat 16 n)
    (hscript : s.script = List.replicate n ⟨false, .tick⟩ ++ rest) :
    ∃ t, Host.Core.run core n s = .next t ∧ JustFired p d e₀ j rest t := by
  have hchan : entryChan s.eng j < 12 := by
    rw [entryChan_congr h.table]
    exact tableOk_sched p d j
  obtain ⟨c, hc, hrun⟩ := run_ticks_to_match h.armed h.cursor hchan hpos hlt hdue hscript
  refine ⟨_, hrun, h.fireEdge c s.eng.tcmp, h.compare, fun a ha => ?pin, rfl⟩
  case pin =>
    rw [← entryChan_congr h.table, ← hc] at ha
    exact (fireEdge_pout_get j c _ a).trans ((if_pos ha).trans (entrySets_congr h.table j))

/-- From the tick before entry 0 is due, abs(j) + 1 ticks fire entry j: by induction on the entry, one `entryTicks` more
for each. -/
theorem run_ticks_through_table {s : State} (hstart : InTable p d s.eng 0 s.eng)
    (hdue : s.eng.tcmp = s.eng.tcnt + 1) (n : Nat) (hn : n < 24) (rest : List Config.Turn)
    (hscript : s.script = List.replicate (tableTime p (key p d) n + 1) ⟨false, .tick⟩ ++ rest) :
    ∃ t, Host.Core.run core (tableTime p (key p d) n + 1) s = .next t ∧ JustFired p d s.eng ⟨n, hn⟩ rest t := by
  induction n generalizing rest with
  | zero =>
    rw [tableTime_start] at hscript ⊢
    exact run_ticks_to_entry (j := ⟨0, hn⟩) hstart Nat.one_pos (by decide) hdue hscript
  | succ n ih =>
    have hprev : n < 24 := Nat.lt_of_succ_lt hn
    have htime := tableTime_add_entryTicks p d ⟨n, hprev⟩
    obtain ⟨hpos, hlt⟩ := entryTicks_bounds p d ⟨n, hprev⟩
    generalize entryTicks (sched p d) ⟨n, hprev⟩ = gap at htime hpos hlt
    simp only at htime
    rw [← htime, Nat.add_right_comm] at hscript ⊢
    rw [List.replicate_add, List.append_assoc] at hscript
    obtain ⟨u, hrun, hfired⟩ := ih hprev _ hscript
    have hgap : u.eng.tcmp = u.eng.tcnt + BitVec.ofNat 16 gap := by
      rw [hfired.inTable.compare, hfired.count, ← htime, BitVec.ofNat_add, ← BitVec.add_assoc]
    rw [run_add_of_next hrun]
    exact run_ticks_to_entry (j := ⟨n + 1, hn⟩) hfired.inTable hpos hlt hgap hfired.script

end

/-- Settles O44: `run_ticks_through_table`, with the times read at entry j and at the edge after it. -/
theorem edgesFireAtTheirAbsoluteTimes : Obligations.EdgesFireAtTheirAbsoluteTimes := by
  unfold Obligations.EdgesFireAtTheirAbsoluteTimes
  intro s d j rest hen hie hifl hcursor htable hdue hscript
  have hstart : InTable s.cfg d s.eng 0 s.eng :=
    ⟨⟨hen, hie, hifl⟩, htable, rfl, congrArg Fin.val hcursor, by simp [tableTime_start]⟩
  rw [← tableTime_of_edge] at hscript ⊢
  obtain ⟨t, hrun, hfired⟩ := run_ticks_through_table hstart hdue j.val j.isLt rest hscript
  obtain ⟨hinTable, _, hpin, _⟩ := hfired
  refine ⟨t, hrun, hinTable.cursor, hinTable.underrun, hinTable.compare, fun c hc => ?pin⟩
  case pin =>
    rw [entryChan_congr htable] at hc
    exact (hpin c hc).trans (entrySets_congr htable j).symm

end Sys2Proof.Machine
end

section
/-! The words of the host commands (30_encoding.md R81, R82), and the operand field CHN that names a channel or none
(R88): the two sides of each access that the commands share. -/

namespace Sys2Proof.Machine

/-! The words of the reads: every bit below CHN is 0. -/

/-- The low 24 bits of a read with a channel are RSV = 0 and IMM = 0. -/
theorem append_zeros_eq (op chn : BitVec 4) : op ++ chn ++ 0#24 = op ++ chn ++ 0#8 ++ 0#16 :=
  (BitVec.append_assoc (x₁ := op ++ chn) (x₂ := 0#8) (x₃ := 0#16)).symm

theorem decode_commandPort_append_zeros (op chn : BitVec 4) :
    decode .commandPort (op ++ chn ++ 0#24) = .ok (decodeCommand (commandWord op chn 0#16)) := by
  rw [append_zeros_eq, decode_commandPort_append]

/-- An RDEDGE word is OP = 0xD, CHN = 0, RSV = 0 and the index. -/
theorem decode_rdedge_append (j : U16) : decode .commandPort (0xD000#16 ++ j) = .ok (.rdedge j) := by
  have hhigh : 0xD000#16 = 0xD#4 ++ 0x0#4 ++ 0#8 := by decide
  rw [hhigh, decode_commandPort_append, decodeCommand_rdedge]

/-! Entries of a file of twelve registers. -/

/-- A file after a write to channel c. -/
theorem getElem_set_channel {α : Type} (file : Vector α 12) (c : Chan) (x : α) (d : Chan) :
    (file.set c x)[d] = if d.val = c.val then x else file[d] := by
  simp [Vector.getElem_set, eq_comm]

/-! Accesses through CHN. -/

section
variable {ch : BitVec 4}

theorem channel_of_lt (h : ch.toNat < 12) : ∃ c : Chan, c.val = ch.toNat := ⟨⟨ch.toNat, h⟩, rfl⟩

theorem writeChannel_of_channel (f : Chan → Engine → Engine) (s : State) {c : Chan} (hc : c.val = ch.toNat) :
    writeChannel ch f s = .next (s.withEngine (f c s.eng)) := by
  rcases writeChannel_cases ch f s with ⟨d, hd, hwrite⟩ | ⟨hnone, _⟩
  · obtain rfl : d = c := Fin.ext (hd.trans hc.symm)
    exact hwrite
  · omega

theorem writeChannel_of_no_channel (f : Chan → Engine → Engine) (s : State) (h : 12 ≤ ch.toNat) :
    writeChannel ch f s = .next s := by
  rcases writeChannel_cases ch f s with ⟨d, _, _⟩ | ⟨_, hdrop⟩
  · omega
  · exact hdrop

theorem readChannel_of_channel (f : Chan → Word) (s : State) {c : Chan} (hc : c.val = ch.toNat) :
    readChannel ch f s = .next (s.respond (f c)) := by
  rcases readChannel_cases ch f s with ⟨d, hd, hread⟩ | ⟨hnone, _⟩
  · obtain rfl : d = c := Fin.ext (hd.trans hc.symm)
    exact hread
  · omega

theorem readChannel_of_no_channel (f : Chan → Word) (s : State) (h : 12 ≤ ch.toNat) :
    readChannel ch f s = .next (s.respond invalidRead) := by
  rcases readChannel_cases ch f s with ⟨d, _, _⟩ | ⟨_, hinvalid⟩
  · omega
  · exact hinvalid

/-- Any read answers some word and changes nothing else. -/
theorem readChannel_responds (ch : BitVec 4) (f : Chan → Word) (s : State) :
    ∃ v, readChannel ch f s = .next (s.respond v) := by
  rcases readChannel_cases ch f s with ⟨_, _, hread⟩ | ⟨_, hinvalid⟩
  · exact ⟨_, hread⟩
  · exact ⟨_, hinvalid⟩

/-- Any write leaves everything but the engine alone. -/
theorem writeChannel_withEngine (ch : BitVec 4) (f : Chan → Engine → Engine) (s : State) :
    ∃ e, writeChannel ch f s = .next (s.withEngine e) := by
  rcases writeChannel_cases ch f s with ⟨_, _, hwrite⟩ | ⟨_, hdrop⟩
  · exact ⟨_, hwrite⟩
  · exact ⟨s.eng, hdrop⟩

end

end Sys2Proof.Machine
end

section
/-! What each host command answers (45_host_interface.md R181 to R193), one equation per command and case. -/

namespace Sys2Proof.Machine

/-! The writes of the pending file (R181 to R184). -/

theorem exec_setw (ch : BitVec 4) (width : U16) (s : State) :
    exec (.setw ch width) s = writeChannel ch (fun c => commandChannel c width) s := rfl

theorem exec_sets (ch : BitVec 4) (speed : U16) (s : State) :
    exec (.sets ch speed) s = writeChannel ch (fun c => setPendingSpeed c speed) s := rfl

/-- GO on the engine. -/
def raiseReady (e : Engine) : Engine := { e with ready := true }

theorem raiseReady_of_ready {e : Engine} (h : e.ready = true) : raiseReady e = e := by
  rw [raiseReady, ← h]

theorem exec_go (s : State) : exec .go s = .next (s.withEngine (raiseReady s.eng)) := rfl

/-! What becomes of a raised READY (R184): it waits while EN = 0, and the next SERVICE commits. -/

/-- While EN = 0 only RESET lowers READY. -/
theorem StepEffect.ready_mono_of_disabled {p : Config.Params} {turn : Config.Turn} {e e' : Engine}
    (effect : StepEffect p turn e e') (hnoReset : turn.reset = false) (hdisabled : e.en = false)
    (hready : e.ready = true) : e'.ready = true := by
  cases effect with
  | reset asserted => cases hnoReset.symm.trans asserted
  | command w _ effect => exact effect.ready_mono hready
  | service _ enabled => cases hdisabled.symm.trans enabled
  | tick _ enabled _ => cases hdisabled.symm.trans enabled
  | still _ => exact hready

/-- With a table in use SERVICE is PROFILE. -/
theorem exec_service_of_inUse (s : State) (hen : s.eng.en = true) (hinUse : s.eng.cursor ≠ 24) :
    exec .service s = .next (s.withEngine (commitIfReady s.cfg s.eng)) := by
  rw [exec_service_of_enabled hen, frameIfDone_of_inUse]
  rwa [commitIfReady_cursor]

/-- With the table drained SERVICE is FRAME on the state PROFILE leaves. -/
theorem exec_service_of_drained (s : State) (hen : s.eng.en = true) (hdrained : s.eng.cursor = 24) :
    exec .service s = exec .frame (s.withEngine (commitIfReady s.cfg s.eng)) := by
  have hcursor : (s.withEngine (commitIfReady s.cfg s.eng)).eng.cursor = 24 :=
    (commitIfReady_cursor s.cfg s.eng).trans hdrained
  rw [exec_service_of_enabled hen, exec_frame_of_drained hcursor]
  rfl

/-- PROFILE with no channel commanded only clears READY and resets the slots (R184). -/
theorem commitPending_of_none_commanded (r : Config.DeltaRound) (dur : Nat) {e : Engine}
    (hnone : ∀ c : Chan, e.pc[c] = false) :
    commitPending r dur e =
      { e with ready := false, pc := Vector.replicate 12 false, ps := Vector.replicate 12 Config.speedMax } := by
  have hkept := fun c => commitPending_of_uncommanded r dur (hnone c)
  have htgt : (commitPending r dur e).tgt = e.tgt := Vector.ext fun i hi => (hkept ⟨i, hi⟩).left
  have hcur : (commitPending r dur e).cur = e.cur := Vector.ext fun i hi => (hkept ⟨i, hi⟩).right.left
  have hdpf : (commitPending r dur e).dpf = e.dpf := Vector.ext fun i hi => (hkept ⟨i, hi⟩).right.right
  have hremain : (commitPending r dur e).remain = e.remain := by
    refine commitPending_remain_of_none r fun ⟨c, hc⟩ => ?_
    exact absurd (timeProfiled_iff_commanded.mp hc).left (by simp [hnone c])
  rw [← htgt, ← hcur, ← hdpf, ← hremain]
  rfl

theorem exec_profile_of_none_commanded {s : State} (hready : s.eng.ready = true)
    (hnone : ∀ c : Chan, s.eng.pc[c] = false) :
    exec .profile s = .next (s.withEngine { s.eng with
      ready := false, pc := Vector.replicate 12 false, ps := Vector.replicate 12 Config.speedMax }) := by
  rw [exec_profile_of_ready hready, commitPending_of_none_commanded _ _ hnone]

/-- No commit writes MOVE_T (R183, 41_profile.md R120). -/
@[simp] theorem commitIfReady_moveT (p : Config.Params) (e : Engine) : (commitIfReady p e).moveT = e.moveT := by
  cases h : e.ready with
  | false => rw [commitIfReady_of_not_ready p h]
  | true => rw [commitIfReady_of_ready p h, profile, commitPending_moveT]

/-! HOLD (R185): one action for both modes. -/

/-- The width at which HOLD stops channel c: the current whole microsecond, or the target. -/
def heldWidth (mode : Config.HoldMode) (c : Chan) (e : Engine) : U16 :=
  match mode with
  | .freeze => BitVec.ofNat 16 (us e.cur[c])
  | .jump => e.tgt[c]

/-- HOLD on channel c: target and current width at `heldWidth`, and no delta. -/
def holdChannel (mode : Config.HoldMode) (c : Chan) (e : Engine) : Engine :=
  { e with
    tgt := e.tgt.set c (heldWidth mode c e)
    cur := e.cur.set c (q16Word (heldWidth mode c e))
    dpf := e.dpf.set c 0 }

theorem holdChannel_freeze : holdChannel .freeze = freezeChannel := rfl

theorem holdChannel_jump : holdChannel .jump = jumpChannel := by
  funext c e
  have hkept : e.tgt.set c e.tgt[c] = e.tgt := Vector.set_getElem_self c.isLt
  simp only [holdChannel, heldWidth, jumpChannel, hkept]

theorem exec_hold (ch : BitVec 4) (s : State) :
    exec (.hold ch) s = writeChannel ch (holdChannel s.cfg.holdMode) s := by
  change execHold ch s = _
  unfold execHold
  cases s.cfg.holdMode with
  | freeze => rw [holdChannel_freeze]
  | jump => rw [holdChannel_jump]

section
variable (mode : Config.HoldMode) (c : Chan) (e : Engine) (d : Chan)

theorem holdChannel_tgt_get :
    (holdChannel mode c e).tgt[d] = if d.val = c.val then heldWidth mode c e else e.tgt[d] :=
  getElem_set_channel e.tgt c _ d

theorem holdChannel_cur_get :
    (holdChannel mode c e).cur[d] = if d.val = c.val then q16Word (heldWidth mode c e) else e.cur[d] :=
  getElem_set_channel e.cur c _ d

theorem holdChannel_dpf_get : (holdChannel mode c e).dpf[d] = if d.val = c.val then 0 else e.dpf[d] :=
  getElem_set_channel e.dpf c _ d

end

/-! START (R186). -/

theorem exec_start_of_enabled {s : State} (h : s.eng.en = true) : exec .start s = .next s := if_pos h

theorem exec_start_of_disabled {s : State} (h : s.eng.en = false) :
    exec .start s = .next (s.withEngine (startEngine s.cfg.startLeadTicks s.eng)) := if_neg (by simp [h])

/-- The lead has 16 bits and is not 0 (00_scope.md R7, 93_implementation_defined.md U12). -/
theorem startLeadTicks_bounds (p : Config.Params) : 0 < p.startLeadTicks ∧ p.startLeadTicks < 2 ^ 16 := by
  obtain ⟨_, _, _, _, _, _, hpos, hlt⟩ := p.ok
  exact ⟨hpos, hlt⟩

/-- START arms the timer so that the match comes after the lead, whatever the count is. -/
theorem ticksToMatch_startEngine (p : Config.Params) (e : Engine) :
    ticksToMatch (startEngine p.startLeadTicks e) = p.startLeadTicks := by
  have hlead := startLeadTicks_bounds p
  simp only [ticksToMatch, startEngine_tcmp, startEngine_tcnt]
  generalize p.startLeadTicks = lead at hlead
  have hone : (1 : U16).toNat = 1 := rfl
  rw [add_sub_cancel_left, BitVec.toNat_sub, BitVec.toNat_ofNat, hone]
  omega

/-! The reads of one channel (R187 to R189). -/

theorem exec_rdcur (ch : BitVec 4) (s : State) :
    exec (.rdcur ch) s = readChannel ch (fun c => s.eng.cur[c]) s := rfl

theorem exec_rdtgt (ch : BitVec 4) (s : State) :
    exec (.rdtgt ch) s = readChannel ch (fun c => s.eng.tgt[c].setWidth 32) s := rfl

theorem exec_rdstat (ch : BitVec 4) (s : State) :
    exec (.rdstat ch) s = readChannel ch (fun c => statusNumber (channelStatus s.eng c)) s := rfl

/-- A u16 register on the response port: 16 zeros above it. -/
theorem setWidth_u16_eq_append (v : U16) : v.setWidth 32 = 0#16 ++ v := by
  rw [BitVec.setWidth_eq_append (by decide)]
  rfl

/-- The limp test first, then the compare on the full Q16.16 value (R189). -/
theorem statusNumber_channelStatus (e : Engine) (c : Chan) :
    statusNumber (channelStatus e c) =
      if e.tgt[c].toNat = 0 then 0#32
      else if e.cur[c].toNat ≠ e.tgt[c].toNat * 65536 then 1#32
      else 2#32 := by
  have hlimp : e.tgt[c] = 0 ↔ e.tgt[c].toNat = 0 := BitVec.toNat_eq
  have hthere : e.cur[c] = q16Word e.tgt[c] ↔ e.cur[c].toNat = e.tgt[c].toNat * 65536 := by
    rw [BitVec.toNat_eq, q16Word_toNat, q16]
  simp only [channelStatus, hlimp, ne_eq, hthere]
  split
  · rfl
  · split <;> rfl

/-! RDEDGE (R192). -/

/-- Bits 31:21 of an edge word are 0 (30_encoding.md R84). -/
theorem edgeWord_eq_append (b : EdgeBits) : edgeWord b = 0#11 ++ b := by
  rw [edgeWord, BitVec.setWidth_eq_append (by decide)]
  rfl

theorem exec_rdedge_of_entry {j : U16} (s : State) {i : EdgeIdx} (hi : i.val = j.toNat) :
    exec (.rdedge j) s = .next (s.respond (edgeWord s.eng.edge[i])) := by
  change execRdedge j s = _
  rw [execRdedge, (edgeIdx?_eq_some_iff j i).mpr hi]

theorem exec_rdedge_of_no_entry {j : U16} (s : State) (h : 24 ≤ j.toNat) :
    exec (.rdedge j) s = .next (s.respond invalidRead) := by
  change execRdedge j s = _
  rw [execRdedge, (edgeIdx?_eq_none_iff j).mpr h]

theorem exec_rdedge_responds (j : U16) (s : State) : ∃ v, exec (.rdedge j) s = .next (s.respond v) := by
  rcases lt_or_ge j.toNat 24 with hlt | hge
  · exact ⟨_, exec_rdedge_of_entry s (i := ⟨j.toNat, hlt⟩) rfl⟩
  · exact ⟨_, exec_rdedge_of_no_entry s hge⟩

/-! The system word (R193, 30_encoding.md R93). -/

theorem systemWord_toNat (e : Engine) :
    (systemWord e).toNat = e.cursor.val + e.en.toNat * 2 ^ 8 + e.ie.toNat * 2 ^ 9 + e.ifl.toNat * 2 ^ 10 +
      e.ready.toNat * 2 ^ 11 + e.underrun.toNat * 2 ^ 12 := by
  have hen := e.en.toNat_le
  have hie := e.ie.toNat_le
  have hifl := e.ifl.toNat_le
  have hready := e.ready.toNat_le
  have hunderrun := e.underrun.toNat_le
  rw [systemWord, BitVec.toNat_ofNat]
  omega

/-- A field of zeros, read off the value of the word. -/
theorem extractLsb'_eq_zero_of_toNat {w : Word} {start len : Nat} (h : w.toNat / 2 ^ start % 2 ^ len = 0) :
    w.extractLsb' start len = 0 := by
  apply BitVec.eq_of_toNat_eq
  rw [extractLsb'_toNat_div, h]
  rfl

/-- One bit of a word, read off its value. -/
theorem getLsbD_eq_of_toNat {w : Word} {i : Nat} {b : Bool} (h : w.toNat / 2 ^ i % 2 = b.toNat) :
    w.getLsbD i = b := by
  rw [BitVec.getLsbD, Nat.testBit_eq_decide_div_mod_eq, h]
  cases b <;> rfl

end Sys2Proof.Machine
end

section
/-! The two halves of the operation map (30_encoding.md R82): with bit 31 clear a word can touch the engine and nothing
else of the state, with bit 31 set the response port and nothing else. -/

namespace Sys2Proof.Machine

/-- A word with bit 31 set has OP 0x8 to 0xF (30_encoding.md R81). -/
theorem opField_ge_of_bit31_set {w : Word} (h : w.getLsbD 31 = true) : 8 ≤ (opField w).toNat := by
  have hmsb : (opField w).getLsbD 3 = true := by simpa [opField] using h
  have hlarge : ∀ op : BitVec 4, op.getLsbD 3 = true → 8 ≤ op.toNat := by decide
  exact hlarge _ hmsb

/-- OP 0x0 to 0x7: the write commands and two reserved codes. -/
theorem exec_decodeCommand_withEngine {w : Word} (h : (opField w).toNat < 8) (s : State) :
    ∃ e, exec (decodeCommand w) s = .next (s.withEngine e) := by
  rw [decodeCommand_eq_commandWord]
  generalize opField w = op at h ⊢
  generalize chnField w = chn, immField w = imm
  have hop : op ∈ [0x0#4, 0x1#4, 0x2#4, 0x3#4, 0x4#4, 0x5#4, 0x6#4, 0x7#4] := by
    revert op
    decide
  simp only [List.mem_cons, List.not_mem_nil, or_false] at hop
  rcases hop with rfl | rfl | rfl | rfl | rfl | rfl | rfl | rfl
  · exact ⟨s.eng, by rw [decodeCommand_reserved0]; rfl⟩
  · rw [decodeCommand_setw, exec_setw]
    exact writeChannel_withEngine chn _ s
  · rw [decodeCommand_sets, exec_sets]
    exact writeChannel_withEngine chn _ s
  · exact ⟨{ s.eng with moveT := imm }, by rw [decodeCommand_sett]; rfl⟩
  · exact ⟨raiseReady s.eng, by rw [decodeCommand_go, exec_go]⟩
  · rw [decodeCommand_hold, exec_hold]
    exact writeChannel_withEngine chn _ s
  · rw [decodeCommand_start]
    cases hen : s.eng.en with
    | false => exact ⟨_, exec_start_of_disabled hen⟩
    | true => exact ⟨s.eng, exec_start_of_enabled hen⟩
  · exact ⟨s.eng, by rw [decodeCommand_reserved7]; rfl⟩

theorem eng_kept_of_responds {result : Result} {s : State} (hread : ∃ v, result = .next (s.respond v)) :
    ∃ answer, result = .next { s with resp := answer } :=
  hread.imp' some fun _ => id

/-- OP 0x8 to 0xF: the reads and one reserved code. -/
theorem exec_decodeCommand_eng_kept {w : Word} (h : 8 ≤ (opField w).toNat) (s : State) :
    ∃ answer, exec (decodeCommand w) s = .next { s with resp := answer } := by
  rw [decodeCommand_eq_commandWord]
  generalize opField w = op at h ⊢
  generalize chnField w = chn, immField w = imm
  have hop : op ∈ [0x8#4, 0x9#4, 0xA#4, 0xB#4, 0xC#4, 0xD#4, 0xE#4, 0xF#4] := by
    revert op
    decide
  simp only [List.mem_cons, List.not_mem_nil, or_false] at hop
  rcases hop with rfl | rfl | rfl | rfl | rfl | rfl | rfl | rfl
  · rw [decodeCommand_rdcur, exec_rdcur]
    exact eng_kept_of_responds (readChannel_responds chn _ s)
  · rw [decodeCommand_rdtgt, exec_rdtgt]
    exact eng_kept_of_responds (readChannel_responds chn _ s)
  · rw [decodeCommand_rdstat, exec_rdstat]
    exact eng_kept_of_responds (readChannel_responds chn _ s)
  · exact eng_kept_of_responds ⟨s.eng.remain.setWidth 32, by rw [decodeCommand_rdrem]; rfl⟩
  · exact eng_kept_of_responds ⟨s.eng.frameCnt, by rw [decodeCommand_rdfrm]; rfl⟩
  · rw [decodeCommand_rdedge]
    exact eng_kept_of_responds (exec_rdedge_responds imm s)
  · exact eng_kept_of_responds ⟨systemWord s.eng, by rw [decodeCommand_rdsys]; rfl⟩
  · exact ⟨s.resp, by rw [decodeCommand_reservedF]; rfl⟩

/-- The components a host command can write; the others are the dispatcher's, the frame's and the fault bit (R196). -/
theorem HostEffect.frame {p : Config.Params} {e e' : Engine} (effect : HostEffect p e e') :
    e' = { e with
      tgt := e'.tgt, cur := e'.cur, dpf := e'.dpf, pc := e'.pc, pw := e'.pw, ps := e'.ps
      moveT := e'.moveT, ready := e'.ready, tcmp := e'.tcmp, ie := e'.ie, en := e'.en, poe := e'.poe } := by
  cases effect <;> rfl

end Sys2Proof.Machine
end

section
/-! The statements about the host interface (45_host_interface.md). -/

namespace Sys2Proof.Machine

/-- Settles O18: a word with bit 31 clear by the effect of the host command, a word with bit 31 set touches the response
port only. -/
theorem noCommandWordTouchesDispatcherState : Obligations.NoCommandWordTouchesDispatcherState := by
  unfold Obligations.NoCommandWordTouchesDispatcherState
  intro w s
  cases hbit : w.getLsbD 31 with
  | false =>
    obtain ⟨e, hexec⟩ := exec_decodeCommand_withEngine (opField_lt_of_bit31_clear hbit) s
    have effect : HostEffect s.cfg s.eng e := hostEffect_of_command hexec
    refine ⟨_, hexec, congrArg s.withEngine effect.frame, ?en, ?ie, fun hset => absurd hset Bool.false_ne_true⟩
    case en => exact fun h => effect.enables_cases.elim (fun kept => kept.left.trans h) And.left
    case ie => exact fun h => effect.enables_cases.elim (fun kept => kept.right.left.trans h) (·.right.left)
  | true =>
    obtain ⟨answer, hexec⟩ := exec_decodeCommand_eng_kept (opField_ge_of_bit31_set hbit) s
    exact ⟨_, hexec, rfl, id, id, fun _ => rfl⟩

/-! The writes. -/

/-- Settles O5: the write of one channel, read entry by entry in PC and PW. -/
theorem setwMarksChannelAndStoresWidth : Obligations.SetwMarksChannelAndStoresWidth := by
  unfold Obligations.SetwMarksChannelAndStoresWidth
  intro ch width s
  rw [exec_setw]
  refine ⟨by rw [decode_commandPort_append, decodeCommand_setw], writeChannel_of_no_channel _ s, fun hch => ?_⟩
  obtain ⟨c, hc⟩ := channel_of_lt hch
  refine ⟨_, writeChannel_of_channel _ s hc, rfl, fun d => ?_⟩
  rw [← hc]
  exact ⟨getElem_set_channel s.eng.pc c true d, getElem_set_channel s.eng.pw c width d⟩

/-- Settles O6: the write of one speed, and the PROFILE that resets all of them. -/
theorem setsStoresSpeedAndCommandsNothing : Obligations.SetsStoresSpeedAndCommandsNothing := by
  unfold Obligations.SetsStoresSpeedAndCommandsNothing
  intro ch speed s
  rw [exec_sets]
  refine ⟨by rw [decode_commandPort_append, decodeCommand_sets], writeChannel_of_no_channel _ s, fun hch => ?_⟩
  obtain ⟨c, hc⟩ := channel_of_lt hch
  refine ⟨_, writeChannel_of_channel _ s hc, rfl, ?speeds, fun hready => ?reset⟩
  case speeds =>
    rw [← hc]
    exact getElem_set_channel s.eng.ps c speed
  case reset =>
    exact ⟨_, exec_profile_of_ready hready, fun d => by simp [Config.speedMax]⟩

/-- Settles O7: MOVE_T is no register of the commit. -/
theorem settStoresStickyDuration : Obligations.SettStoresStickyDuration := by
  unfold Obligations.SettStoresStickyDuration
  intro chn ms s
  refine ⟨by rw [decode_commandPort_append, decodeCommand_sett], rfl, fun t u hprofile => ?_⟩
  obtain rfl := Host.Outcome.next.inj ((exec_profile t).symm.trans hprofile)
  exact commitIfReady_moveT t.cfg t.eng

/-- Settles O8: GO is `raiseReady`; then a step with EN = 0, a SERVICE, and a PROFILE with nothing commanded. -/
theorem goRaisesReady : Obligations.GoRaisesReady := by
  unfold Obligations.GoRaisesReady
  intro s
  refine ⟨fun chn imm => by rw [decode_commandPort_append, decodeCommand_go], rfl, ?again, ?pending, ?commits, ?empty⟩
  case again =>
    intro hready
    rw [exec_go, raiseReady_of_ready hready, withEngine_eng_self]
  case pending =>
    intro t u hgo hdisabled hnoReset hstep
    obtain rfl := Host.Outcome.next.inj ((exec_go s).symm.trans hgo)
    exact (stepEffect_of_step hstep).ready_mono_of_disabled hnoReset hdisabled rfl
  case commits =>
    intro t hgo henabled
    obtain rfl := Host.Outcome.next.inj ((exec_go s).symm.trans hgo)
    exact ⟨_, exec_profile _, exec_service_of_inUse (s.withEngine (raiseReady s.eng)) henabled,
      exec_service_of_drained (s.withEngine (raiseReady s.eng)) henabled⟩
  case empty =>
    intro hnone t hgo
    obtain rfl := Host.Outcome.next.inj ((exec_go s).symm.trans hgo)
    exact ⟨_, exec_profile_of_none_commanded rfl hnone, rfl, fun c => by simp [Config.speedMax]⟩

/-- Settles O9: both modes are `holdChannel`, which stops the channel at `heldWidth`. -/
theorem holdForcesCurrentToEqualTarget : Obligations.HoldForcesCurrentToEqualTarget := by
  unfold Obligations.HoldForcesCurrentToEqualTarget
  intro ch s
  rw [exec_hold]
  refine ⟨fun imm => by rw [decode_commandPort_append, decodeCommand_hold], writeChannel_of_no_channel _ s,
    fun hch => ?_⟩
  obtain ⟨c, hc⟩ := channel_of_lt hch
  refine ⟨_, writeChannel_of_channel _ s hc, rfl, fun d => ⟨fun hother => ?other, fun hsame => ?held⟩⟩
  case other =>
    rw [← hc] at hother
    simp only [withEngine_eng, holdChannel_tgt_get, holdChannel_cur_get, holdChannel_dpf_get, if_neg hother, and_self]
  case held =>
    obtain rfl : d = c := Fin.ext (hsame.trans hc.symm)
    have htgt := holdChannel_tgt_get s.cfg.holdMode d s.eng d
    have hcur := holdChannel_cur_get s.cfg.holdMode d s.eng d
    have hdpf := holdChannel_dpf_get s.cfg.holdMode d s.eng d
    rw [if_pos rfl] at htgt hcur hdpf
    have harrived : (holdChannel s.cfg.holdMode d s.eng).cur[d].toNat =
        (holdChannel s.cfg.holdMode d s.eng).tgt[d].toNat * 65536 := by
      rw [hcur, htgt, q16Word_toNat, q16]
    refine ⟨hdpf, harrived, fun hfreeze => ?freeze, fun hjump => ?jump, ?status⟩
    case freeze =>
      rw [withEngine_eng, htgt, hfreeze]
      exact us_ofNat_toNat _
    case jump =>
      rw [withEngine_eng, htgt, hjump]
      rfl
    case status =>
      have hlimp : (holdChannel s.cfg.holdMode d s.eng).tgt[d] = 0 ↔
          (holdChannel s.cfg.holdMode d s.eng).tgt[d].toNat = 0 := BitVec.toNat_eq
      rw [exec_rdstat, readChannel_of_channel _ _ hc, withEngine_eng, statusNumber_channelStatus,
        if_neg (not_not.mpr harrived)]
      simp only [hlimp]
      rfl

/-- Settles O10: START on either side of its test. -/
theorem startEnablesEngineOnce : Obligations.StartEnablesEngineOnce := by
  unfold Obligations.StartEnablesEngineOnce
  intro s
  refine ⟨fun chn imm => by rw [decode_commandPort_append, decodeCommand_start], exec_start_of_enabled,
    fun hdisabled => ⟨_, exec_start_of_disabled hdisabled, rfl, fun c => by simp, ?compare⟩⟩
  case compare => simp

/-- Settles O58: the table is drained, and the match comes after the whole lead. -/
theorem startBeginsServiceOnTime : Obligations.StartBeginsServiceOnTime := by
  unfold Obligations.StartBeginsServiceOnTime
  intro bound s hdisabled hifl hunderrun hdrained hbound
  refine ⟨_, exec_start_of_disabled hdisabled, ?_⟩
  exact
    { enabled := rfl
      listening := rfl
      noPending := hifl
      noUnderrun := hunderrun
      inTime := fun _ => by rwa [Nat.zero_add, withEngine_eng, ticksToMatch_startEngine]
      table := fun hinUse => absurd hdrained hinUse }

/-! The reads. -/

/-- Settles O12: the read of one channel, on either side of the index test. -/
theorem rdcurRdtgtAnswerChannelWidths : Obligations.RdcurRdtgtAnswerChannelWidths := by
  unfold Obligations.RdcurRdtgtAnswerChannelWidths
  intro ch s
  rw [exec_rdcur, exec_rdtgt]
  refine ⟨by rw [decode_commandPort_append_zeros, decodeCommand_rdcur],
    by rw [decode_commandPort_append_zeros, decodeCommand_rdtgt],
    fun hinvalid => ⟨readChannel_of_no_channel _ s hinvalid, readChannel_of_no_channel _ s hinvalid⟩,
    fun c hc => ⟨readChannel_of_channel _ s hc, ?_⟩⟩
  rw [readChannel_of_channel _ s hc, setWidth_u16_eq_append]
  rfl

/-- Settles O13, by `statusNumber_channelStatus`. -/
theorem rdstatAnswersStatusCode : Obligations.RdstatAnswersStatusCode := by
  unfold Obligations.RdstatAnswersStatusCode
  intro ch s
  rw [exec_rdstat]
  refine ⟨by rw [decode_commandPort_append_zeros, decodeCommand_rdstat], readChannel_of_no_channel _ s,
    fun c hc => ?_⟩
  rw [readChannel_of_channel _ s hc, statusNumber_channelStatus]
  rfl

/-- Settles O14, with REMAIN zero-extended by `setWidth_u16_eq_append`. -/
theorem rdremRdfrmAnswerCounters : Obligations.RdremRdfrmAnswerCounters := by
  unfold Obligations.RdremRdfrmAnswerCounters
  intro s
  refine ⟨by decide, by decide, ?remain, rfl⟩
  rw [← setWidth_u16_eq_append]
  rfl

/-- Settles O15: the entry the whole index names, by `edgeWord_eq_append`, or none. -/
theorem rdedgeAnswersEdgeWord : Obligations.RdedgeAnswersEdgeWord := by
  unfold Obligations.RdedgeAnswersEdgeWord
  intro j s
  refine ⟨decode_rdedge_append j, exec_rdedge_of_no_entry s, fun i hi => ?_⟩
  rw [exec_rdedge_of_entry s hi, edgeWord_eq_append]
  rfl

/-- Settles O16: every field is a digit of `systemWord_toNat`. -/
theorem rdsysAnswersSystemWord : Obligations.RdsysAnswersSystemWord := by
  unfold Obligations.RdsysAnswersSystemWord
  intro s
  have hvalue := systemWord_toNat s.eng
  have hen := s.eng.en.toNat_le
  have hie := s.eng.ie.toNat_le
  have hifl := s.eng.ifl.toNat_le
  have hready := s.eng.ready.toNat_le
  have hunderrun := s.eng.underrun.toNat_le
  refine ⟨by decide, systemWord s.eng, rfl, ?cursor, ?low, ?en, ?ie, ?ifl, ?ready, ?underrun, ?high⟩
  case cursor => rw [extractLsb'_toNat_div]; omega
  case low | high => exact extractLsb'_eq_zero_of_toNat (by omega)
  all_goals exact getLsbD_eq_of_toNat (by omega)

end Sys2Proof.Machine
end

section
/-! The one exception and the steps (60_exceptions.md R200, R203): DISPATCH ends in an underrun on a drained table, and
nothing stops a step that starts in the invariant. -/

namespace Sys2Proof.Machine

/-- With CURSOR = 24 the body of DISPATCH has no word to fetch and records an underrun (R203). -/
theorem dispatchBody_of_drained {s : State} (hdrained : s.eng.cursor = 24) :
    dispatchBody s = .next (s.withEngine (raiseUnderrun (clearInterrupt s.eng))) := by
  unfold dispatchBody
  rw [(cursorIdx?_eq_none_iff _).mpr hdrained]

/-- Settles O40: DISPATCH runs its body, by `exec_dispatch_of_interrupt`, and the body finds the table drained. -/
theorem underrunRecordsAndChangesNothingElse : Obligations.UnderrunRecordsAndChangesNothingElse := by
  unfold Obligations.UnderrunRecordsAndChangesNothingElse
  intro s hifl hie hdrained
  exact (exec_dispatch_of_interrupt hifl hie).trans (dispatchBody_of_drained hdrained)

/-! The steps. -/

/-- The body of DISPATCH completes where every entry of the table names a channel: one edge fires, or an underrun is
recorded. -/
theorem dispatchBody_completes {s : State} (htable : TableOk s.eng) : ∃ t, dispatchBody s = .next t := by
  rcases dispatchBody_cases s with ⟨j, hj, _⟩ | ⟨_, hrun⟩
  · obtain ⟨c, _, hrun⟩ := dispatchBody_fires hj.symm (htable j)
    exact ⟨_, hrun⟩
  · exact ⟨_, hrun⟩

/-- TICK completes while EN = 1: the interrupt is not taken, or the body of DISPATCH completes. -/
theorem exec_tick_completes {s : State} (hen : s.eng.en = true) (htable : TableOk s.eng) :
    ∃ t, exec .tick s = .next t := by
  have hcounted : TableOk (countTick s.eng) := htable.of_edge_eq (countTick_edge s.eng)
  rw [exec_tick_of_enabled hen]
  rcases dispatchIfPending_cases (s.withEngine (countTick s.eng)) with ⟨_, _, hrun, _⟩ | ⟨_, hrun, _⟩
  · rw [hrun]
    exact dispatchBody_completes hcounted
  · exact ⟨_, hrun⟩

/-- Every command word is accepted, by the statement on what a command word touches (45_host_interface.md R180). -/
theorem exec_decodeCommand_completes (w : Word) (s : State) : ∃ t, exec (decodeCommand w) s = .next t :=
  (noCommandWordTouchesDispatcherState w s).imp fun _ touches => touches.left

/-- Settles O54: by what the turn runs; only TICK needs the invariant, for the words of the table. -/
theorem stepAlwaysCompletes : Obligations.StepAlwaysCompletes := by
  unfold Obligations.StepAlwaysCompletes
  intro s hinv
  rcases step_cases s with ⟨_, hreset⟩ | ⟨w, _, hcommand⟩ | ⟨_, hen, hservice⟩ | ⟨_, hen, htick⟩ | ⟨_, _, hstill⟩
  · exact ⟨_, hreset⟩
  · exact (exec_decodeCommand_completes w _).imp fun _ => hcommand.trans
  · exact ⟨_, hservice.trans (exec_service_of_enabled (by rwa [takeTurn_eng]))⟩
  · have htable : TableOk (takeTurn s).2.eng := by
      rw [takeTurn_eng]
      exact hinv.channels
    exact (exec_tick_completes (by rwa [takeTurn_eng]) htable).imp fun _ => htick.trans
  · exact ⟨_, hstill⟩

end Sys2Proof.Machine
end

section
/-! The regeneration deadline (70_reset_and_hazards.md R240, R241): the ticks to the next match as the timer counts and
edges fire, and what each paced turn does to `ServiceOnTime`. -/

namespace Sys2Proof.Machine

variable {p : Config.Params} {bound k : Nat} {e e' : Engine}

/-! The ticks to the next match (44_dispatch.md R161, R167). -/

/-- A tick that reaches no match brings the next one a tick nearer. -/
theorem ticksToMatch_setCount_succ (hne : e.tcnt + 1 ≠ e.tcmp) :
    ticksToMatch (setCount (e.tcnt + 1) e) + 1 = ticksToMatch e := by
  simp only [ticksToMatch, setCount_tcnt, setCount_tcmp]
  bv_omega

/-- One tick before the match there is one tick to it. -/
theorem ticksToMatch_of_match (hmatch : e.tcnt + 1 = e.tcmp) : ticksToMatch e = 1 := by
  simp only [ticksToMatch, ← hmatch]
  bv_omega

/-- An edge that fires at its match puts the next match DT ticks ahead (44_dispatch.md R167). -/
theorem ticksToMatch_fireEdge (j : EdgeIdx) (c : Chan) (hatMatch : e.tcnt = e.tcmp) (hpos : 0 < entryTicks e j) :
    ticksToMatch (fireEdge j c e) = entryTicks e j := by
  have hlt : entryTicks e j < 2 ^ 16 := BitVec.isLt _
  simp only [ticksToMatch, fireEdge_tcmp, fireEdge_tcnt, hatMatch]
  generalize entryTicks e j = gap at hpos hlt
  bv_omega

/-- The last delta of a table leaves the regeneration window (R241): the last clause of `SchedKeepsMinimumSpacing`, on a
state with the table drained, which SCHED does not look at. -/
theorem regenerationWindow_le_entryTicks_last (p : Config.Params) (d : Engine) :
    regenerationWindow p ≤ entryTicks (sched p d) 23 := by
  obtain ⟨t, hsched, _, hwindow⟩ :=
    schedKeepsMinimumSpacing { State.reset with cfg := p, eng := { d with cursor := 24 } } rfl
  rw [eq_of_exec_sched hsched] at hwindow
  exact hwindow

/-! The paced turns (R241). -/

/-- A paced schedule is a paced turn and, with the ticks counted on, a paced rest. -/
theorem paced_cons_iff (bound k : Nat) (turn : Config.Turn) (rest : List Config.Turn) :
    paced bound k (turn :: rest) = true ↔
      paced bound k [turn] = true ∧ paced bound (ticksSinceService k turn) rest = true := by
  obtain ⟨reset, event⟩ := turn
  cases event <;> simp [paced, ticksSinceService, and_assoc]

/-- The three turns a paced schedule admits. -/
theorem paced_turn_cases {turn : Config.Turn} (h : paced bound k [turn] = true) :
    (∃ w, turn = ⟨false, .command w⟩) ∨ turn = ⟨false, .service⟩ ∨ (turn = ⟨false, .tick⟩ ∧ k + 1 ≤ bound) := by
  obtain ⟨reset, event⟩ := turn
  cases event <;> simpa [paced] using h

/-! What keeps the deadline. -/

/-- While the engine is enabled no host command moves the timer or the enables: START does nothing then
(45_host_interface.md R186, R196). -/
theorem HostEffect.timer_eq_of_enabled (effect : HostEffect p e e') (hen : e.en = true) :
    e'.tcnt = e.tcnt ∧ e'.tcmp = e.tcmp ∧ e'.en = e.en ∧ e'.ie = e.ie := by
  cases effect with
  | start disabled => cases hen.symm.trans disabled
  | _ => exact ⟨rfl, rfl, rfl, rfl⟩

theorem ServiceOnTime.of_hostEffect (h : ServiceOnTime p bound k e) (effect : HostEffect p e e') :
    ServiceOnTime p bound k e' := by
  obtain ⟨htcnt, htcmp, hen, hie⟩ := effect.timer_eq_of_enabled h.enabled
  exact
    { enabled := hen.trans h.enabled
      listening := hie.trans h.listening
      noPending := effect.ifl_eq.trans h.noPending
      noUnderrun := effect.underrun_eq.trans h.noUnderrun
      inTime := by
        rw [effect.cursor_eq, ticksToMatch, htcnt, htcmp]
        exact h.inTime
      table := by
        rw [effect.cursor_eq, effect.edge_eq]
        exact h.table }

/-- After SERVICE a table that SCHED wrote is in use, the old one or a new one (40_service_loop.md R101). -/
theorem service_table_inUse (htable : e.cursor ≠ 24 → ∃ d : Engine, e.edge = (sched p d).edge) :
    (frameIfDone p (commitIfReady p e)).cursor ≠ 24 ∧
      ∃ d : Engine, (frameIfDone p (commitIfReady p e)).edge = (sched p d).edge := by
  rcases frameIfDone_cases p (commitIfReady p e) with ⟨_, hframe⟩ | ⟨hinUse, hkept⟩
  · rw [hframe]
    exact ⟨by rw [reload_cursor]; decide, accum (commitIfReady p e), reload_edge _⟩
  · rw [hkept, commitIfReady_edge]
    exact ⟨hinUse, htable (by rwa [commitIfReady_cursor] at hinUse)⟩

/-- SERVICE meets the deadline whatever the ticks counted are, and they are counted from 0 again. -/
theorem ServiceOnTime.service (h : ServiceOnTime p bound k e) :
    ServiceOnTime p bound 0 (frameIfDone p (commitIfReady p e)) := by
  obtain ⟨hinUse, htable⟩ := service_table_inUse h.table
  exact
    { enabled := by rw [frameIfDone_en, commitIfReady_en, h.enabled]
      listening := by rw [frameIfDone_ie, commitIfReady_ie, h.listening]
      noPending := by rw [frameIfDone_ifl, commitIfReady_ifl, h.noPending]
      noUnderrun := by rw [frameIfDone_underrun, commitIfReady_underrun, h.noUnderrun]
      inTime := fun hdrained => absurd hdrained hinUse
      table := fun _ => htable }

/-- A tick short of the match: one tick more counted, one tick less to the match. -/
theorem ServiceOnTime.setCount_succ (h : ServiceOnTime p bound k e) (hne : e.tcnt + 1 ≠ e.tcmp) :
    ServiceOnTime p bound (k + 1) (setCount (e.tcnt + 1) e) where
  enabled := h.enabled
  listening := h.listening
  noPending := h.noPending
  noUnderrun := h.noUnderrun
  inTime hdrained := by
    have hnearer := ticksToMatch_setCount_succ hne
    have hbefore := h.inTime hdrained
    omega
  table := h.table

/-- Within the bound a match finds a table in use: the deadline leaves a drained one more ticks than that (R240). -/
theorem ServiceOnTime.inUse_of_match (h : ServiceOnTime p bound k e) (hpaced : k + 1 ≤ bound)
    (hmatch : e.tcnt + 1 = e.tcmp) : e.cursor ≠ 24 := fun hdrained => by
  have hlate := h.inTime hdrained
  rw [ticksToMatch_of_match hmatch] at hlate
  omega

/-- The edge of a match keeps the deadline: the last one of the table leaves the whole regeneration window (R241). -/
theorem ServiceOnTime.fireEdge {j : EdgeIdx} (h : ServiceOnTime p bound k e) (hbound : bound ≤ regenerationWindow p)
    (hj : e.cursor.val = j.val) (c : Chan) :
    ServiceOnTime p bound (k + 1) (fireEdge j c (setCount e.tcmp e)) := by
  have hinUse : e.cursor ≠ 24 := fun hdrained => absurd j.isLt (by rw [← hj, hdrained]; decide)
  obtain ⟨d, htable⟩ := h.table hinUse
  have hticks : entryTicks (setCount e.tcmp e) j = entryTicks (sched p d) j := entryTicks_congr htable j
  have hpos : 0 < entryTicks (setCount e.tcmp e) j := (entryTicks_bounds p d j).left.trans_eq hticks.symm
  refine
    { enabled := (fireEdge_en j c _).trans h.enabled
      listening := (fireEdge_ie j c _).trans h.listening
      noPending := fireEdge_ifl j c _
      noUnderrun := (fireEdge_underrun j c _).trans h.noUnderrun
      inTime := fun hdrained => ?inTime
      table := fun _ => ⟨d, (fireEdge_edge j c _).trans htable⟩ }
  case inTime =>
    have hcursor := fireEdge_cursor j c (setCount e.tcmp e) hj
    rw [hdrained] at hcursor
    obtain rfl : j = 23 := Fin.ext (Nat.succ_inj.mp hcursor.symm)
    have hwindow := regenerationWindow_le_entryTicks_last p d
    rw [ticksToMatch_fireEdge 23 c rfl hpos, hticks]
    omega

/-! The steps. -/

/-- A paced TICK completes, and keeps the deadline with one tick more counted. -/
theorem exec_tick_serviceOnTime {s : State} (h : ServiceOnTime s.cfg bound k s.eng)
    (hbound : bound ≤ regenerationWindow s.cfg) (hpaced : k + 1 ≤ bound) :
    ∃ e, exec .tick s = .next (s.withEngine e) ∧ ServiceOnTime s.cfg bound (k + 1) e := by
  by_cases hmatch : s.eng.tcnt + 1 = s.eng.tcmp
  case pos =>
    have hinUse := h.inUse_of_match hpaced hmatch
    obtain ⟨j, hj⟩ : ∃ j : EdgeIdx, s.eng.cursor.val = j.val := ⟨s.eng.cursor.castPred hinUse, rfl⟩
    obtain ⟨d, htable⟩ := h.table hinUse
    have hchan : entryChan s.eng j < 12 := by
      rw [entryChan_congr htable]
      exact tableOk_sched s.cfg d j
    obtain ⟨c, _, hrun⟩ := exec_tick_of_match h.enabled h.listening hj hchan hmatch
    exact ⟨_, hrun, h.fireEdge hbound hj c⟩
  case neg => exact ⟨_, exec_tick_of_no_match h.enabled h.noPending hmatch, h.setCount_succ hmatch⟩

/-- A command word completes and keeps the deadline, whatever its bits are. -/
theorem exec_decodeCommand_serviceOnTime {s : State} (w : Word) (h : ServiceOnTime s.cfg bound k s.eng) :
    ∃ t, exec (decodeCommand w) s = .next t ∧ t.cfg = s.cfg ∧ t.script = s.script ∧
      ServiceOnTime s.cfg bound k t.eng := by
  obtain ⟨t, hrun, hframe, _⟩ := noCommandWordTouchesDispatcherState w s
  exact ⟨t, hrun, by rw [hframe], by rw [hframe], h.of_hostEffect (hostEffect_of_command hrun)⟩

/-- A paced step completes and keeps the deadline with the ticks counted on; the parameters stay, and the turn is taken
from the script. -/
theorem step_of_paced {s : State} {turn : Config.Turn} {rest : List Config.Turn}
    (hbound : bound ≤ regenerationWindow s.cfg) (h : ServiceOnTime s.cfg bound k s.eng)
    (hscript : s.script = turn :: rest) (hpaced : paced bound k [turn] = true) :
    ∃ t, step s = .next t ∧ t.cfg = s.cfg ∧ t.script = rest ∧
      ServiceOnTime s.cfg bound (ticksSinceService k turn) t.eng := by
  have hen := h.enabled
  rcases paced_turn_cases hpaced with ⟨w, rfl⟩ | rfl | ⟨rfl, htick⟩
  case inl =>
    obtain ⟨t, hrun, hkept⟩ := exec_decodeCommand_serviceOnTime (s := s.turnsTaken rest) w h
    exact ⟨t, (step_of_script hscript (turnInstr_command w _)).trans hrun, hkept⟩
  case inr.inl =>
    have hstep := step_of_script (i := .service) hscript (by rw [hen, turnInstr_service])
    exact ⟨_, hstep.trans (exec_service_of_enabled (s := s.turnsTaken rest) hen), rfl, rfl, h.service⟩
  case inr.inr =>
    obtain ⟨e, hrun, hkept⟩ := exec_tick_serviceOnTime (s := s.turnsTaken rest) h hbound htick
    exact ⟨_, (step_of_tick hscript hen).trans hrun, rfl, rfl, hkept⟩

/-- From a state in time a paced schedule runs without an underrun: by induction on the turns, `step_of_paced` for each. -/
theorem run_paced_noUnderrun {n : Nat} {s : State} {turns : List Config.Turn}
    (hbound : bound ≤ regenerationWindow s.cfg) (h : ServiceOnTime s.cfg bound k s.eng) (hscript : s.script = turns)
    (hpaced : paced bound k turns = true) (hn : n ≤ turns.length) :
    ∃ t, Host.Core.run core n s = .next t ∧ t.eng.underrun = false := by
  induction turns generalizing n s k with
  | nil =>
    obtain rfl := Nat.le_zero.mp hn
    exact ⟨s, rfl, h.noUnderrun⟩
  | cons turn rest ih =>
    cases n with
    | zero => exact ⟨s, rfl, h.noUnderrun⟩
    | succ n =>
      obtain ⟨hturn, hrest⟩ := (paced_cons_iff bound k turn rest).mp hpaced
      obtain ⟨t, hstep, hcfg, hleft, hkept⟩ := step_of_paced hbound h hscript hturn
      rw [← hcfg] at hbound hkept
      rw [run_succ_of_next (M := core) hstep]
      exact ih hbound hkept hleft hrest (Nat.le_of_succ_le_succ hn)

end Sys2Proof.Machine
end

section
/-! The statements about reset, START and the underrun hazard (70_reset_and_hazards.md). -/

namespace Sys2Proof.Machine

/-- Settles O59, by `step_of_paced`. -/
theorem pacedStepKeepsServiceOnTime : Obligations.PacedStepKeepsServiceOnTime := by
  unfold Obligations.PacedStepKeepsServiceOnTime
  intro bound k s turn rest hbound hontime hscript hpaced
  obtain ⟨t, hstep, hcfg, _, hkept⟩ := step_of_paced hbound hontime hscript hpaced
  exact ⟨t, hstep, hcfg ▸ hkept⟩

/-- The step that takes START from a disabled engine. -/
theorem step_start_of_disabled {s : State} {rest : List Config.Turn}
    (hscript : s.script = ⟨false, .command 0x60000000#32⟩ :: rest) (hdisabled : s.eng.en = false) :
    step s = .next ((s.turnsTaken rest).withEngine (startEngine s.cfg.startLeadTicks s.eng)) := by
  have hdecode : decodeCommand 0x60000000#32 = .start := decodeCommand_start (chn := 0) (imm := 0)
  have hstep := step_of_script hscript (turnInstr_command _ _)
  rw [hdecode] at hstep
  exact hstep.trans (exec_start_of_disabled (s := s.turnsTaken rest) hdisabled)

/-- Settles O57: START puts the deadline in force (`startBeginsServiceOnTime`), and `run_paced_noUnderrun` from there. -/
theorem pacedServiceNeverUnderruns : Obligations.PacedServiceNeverUnderruns := by
  unfold Obligations.PacedServiceNeverUnderruns
  intro bound n s turns hinv hdisabled hdrained hunderrun hwindow hlead hscript hpaced hn
  cases n with
  | zero => exact ⟨s, rfl, hunderrun⟩
  | succ n =>
    obtain ⟨t, hstart, hontime⟩ :=
      startBeginsServiceOnTime bound (s.turnsTaken turns) hdisabled hinv.noPending hunderrun hdrained hlead
    obtain rfl := Host.Outcome.next.inj ((exec_start_of_disabled (s := s.turnsTaken turns) hdisabled).symm.trans hstart)
    rw [run_succ_of_next (M := core) (step_start_of_disabled hscript hdisabled)]
    exact run_paced_noUnderrun hwindow hontime rfl hpaced (Nat.le_of_succ_le_succ hn)

/-! The first table (R233). -/

section
variable {p : Config.Params} {e : Engine} (hlow : ∀ c : Chan, us e.cur[c] < p.minPulse)
include hlow

/-- With every width below the pulse range no entry sets its pin (43_schedule.md R143, R144). -/
theorem sched_entrySets_of_forcedLow (j : EdgeIdx) : entrySets (sched p e) j = false := by
  have hrange := pulseRange_nonempty p
  rw [sched_entrySets]
  obtain ⟨g, i, rfl | rfl⟩ := exists_slot j
  · rw [edgeSets_riseSlot, key_of_forcedLow (hlow _), decide_eq_false_iff_not]
    omega
  · rw [edgeSets_fallSlot, key_of_forcedLow (hlow _), decide_eq_false_iff_not]
    omega

/-- From the third rising edge of the frame to the first falling edge, MIN_PULSE - 1 after the first rising one. -/
theorem sched_entryTicks_two_of_forcedLow :
    p.risingEdgeSpacing * 2 + entryTicks (sched p e) 2 = p.minPulse - 1 := by
  have hslot : riseSlot 0 2 = 2 := rfl
  have hticks := sched_entryTicks p e (riseSlot 0 2)
  rw [edgeTime_riseSlot, nextEdgeTime_riseSlot, hslot] at hticks
  simpa [riseTime, fallTime, key_of_forcedLow (hlow _)] using hticks

/-- From the last falling edge to the next frame. -/
theorem sched_entryTicks_last_of_forcedLow :
    9000 + p.risingEdgeSpacing * 2 + (p.minPulse - 1) + entryTicks (sched p e) 23 = 20000 := by
  have hslot : fallSlot 3 2 = 23 := rfl
  have hticks := sched_entryTicks p e (fallSlot 3 2)
  rw [edgeTime_fallSlot, hslot, nextEdgeTime_last] at hticks
  simpa [riseTime, fallTime, key_of_forcedLow (hlow _)] using hticks

end

/-! A frame of the engine (40_service_loop.md R101). -/

@[simp] theorem frame_cursor (p : Config.Params) (e : Engine) : (frame p e).cursor = 0 := reload_cursor _
@[simp] theorem frame_frameCnt (p : Config.Params) (e : Engine) : (frame p e).frameCnt = e.frameCnt + 1 := by
  simp [frame]
@[simp] theorem frame_tcmp (p : Config.Params) (e : Engine) : (frame p e).tcmp = e.tcmp := by simp [frame]
theorem frame_edge (p : Config.Params) (e : Engine) : (frame p e).edge = (sched p (accum e)).edge := reload_edge _

/-- A SERVICE with no command pending and the table drained is FRAME (40_service_loop.md R100). -/
theorem exec_service_of_idle_drained {s : State} (hen : s.eng.en = true) (hidle : s.eng.ready = false)
    (hdrained : s.eng.cursor = 24) : exec .service s = .next (s.withEngine (frame s.cfg s.eng)) := by
  rw [exec_service_of_enabled hen, commitIfReady_of_not_ready _ hidle, frameIfDone_of_drained _ hdrained]

/-- ACCUM leaves the widths of reset at 0, below the pulse range. -/
theorem us_accum_started_lt (lead : Nat) (c : Chan) :
    us (accum (startEngine lead Engine.reset)).cur[c] < Config.Params.default.minPulse := by
  have hcur : (accum (startEngine lead Engine.reset)).cur[c] = accumWidth 0 0 0 := by
    rw [accum_cur_get]
    simp [Engine.reset]
  rw [hcur]
  decide

/-- Settles O48: SERVICE finds no command pending and the table drained, so it builds a frame from the widths of reset. -/
theorem startThenServiceBuildsAllLowTable : Obligations.StartThenServiceBuildsAllLowTable := by
  unfold Obligations.StartThenServiceBuildsAllLowTable
  refine ⟨_, _, exec_start_of_disabled rfl, exec_service_of_idle_drained rfl rfl rfl, ?cursor, ?count, ?compare,
    fun j => ?low, ?third, ?last⟩
  case cursor => exact frame_cursor _ _
  case count => exact frame_frameCnt _ _
  case compare => exact frame_tcmp _ _
  case low => exact (entrySets_congr (frame_edge _ _) j).trans (sched_entrySets_of_forcedLow (us_accum_started_lt _) j)
  case third =>
    have hthird := sched_entryTicks_two_of_forcedLow (us_accum_started_lt State.reset.cfg.startLeadTicks)
    exact (entryTicks_congr (frame_edge _ _) 2).trans (Nat.add_left_cancel hthird)
  case last =>
    have hlast := sched_entryTicks_last_of_forcedLow (us_accum_started_lt State.reset.cfg.startLeadTicks)
    exact (entryTicks_congr (frame_edge _ _) 23).trans (Nat.add_left_cancel hlast)

/-! The reset input (R230). -/

/-- Settles O51: with the reset input asserted the step is RESET, and the event plays no part. -/
theorem assertedResetLosesCommand : Obligations.AssertedResetLosesCommand := by
  unfold Obligations.AssertedResetLosesCommand
  intro s w w' rest
  have hreset : ∀ v : Word, step { s with script := ⟨true, .command v⟩ :: rest } =
      exec .reset (s.turnsTaken rest) :=
    fun v => step_of_script rfl (turnInstr_reset (.command v) s.eng.en)
  exact ⟨(s.turnsTaken rest).withEngine Engine.reset, hreset w, hreset w', rfl, rfl⟩

end Sys2Proof.Machine
end

section
/-! The words the spec's vectors write out (95_test_vectors.md V81 to V92). -/

namespace Sys2Proof

/-- Settles O4: each word is the encoding of its operation, so `decode_of_encode` reads the operation back. -/
theorem writtenOutWordsDecode : Obligations.WrittenOutWordsDecode := by
  unfold Obligations.WrittenOutWordsDecode
  have hsetw : encode (.setw 2 2000) = some (.commandPort, 0x120007D0#32) := rfl
  have hsets : encode (.sets 0 750) = some (.commandPort, 0x200002EE#32) := rfl
  have hhold : encode (.hold 7) = some (.commandPort, 0x57000000#32) := rfl
  have hstart : encode .start = some (.commandPort, 0x60000000#32) := rfl
  have hrdedge : encode (.rdedge 23) = some (.commandPort, 0xD0000017#32) := rfl
  have heclr : encode (.eclr 11 10461) = some (.edgeTable, 0x000B28DD#32) := rfl
  have heset : encode (.eset 10 459) = some (.edgeTable, 0x001A01CB#32) := rfl
  exact ⟨decode_of_encode rfl hsetw, decode_of_encode rfl hsets, decode_of_encode rfl hhold,
    decode_of_encode rfl hstart, decode_of_encode rfl hrdedge, decode_of_encode rfl heclr, decode_of_encode rfl heset⟩

end Sys2Proof
end
